-- ==== Sys2Proof/Word.lean ====
section
/-! DEFINITION. The word types of the DSE (00_scope.md R13, 20_memory.md R54, 30_encoding.md R71). -/

namespace Sys2Proof

/-- One byte lane of the host bus (R54). -/
abbrev Byte := BitVec 8

/-- A register or DMEM word, 32 bits (R54); as a sample, a binary32 bit pattern (R17). -/
abbrev Word := BitVec 32

/-- A command, `{W3, W2, W1, W0}`, 128 bits (R71). -/
abbrev Cmd := BitVec 128

/-- `v[hi:lo]` read as an unsigned integer (R13), given by its low bit and its width. -/
def field (v lo width : Nat) : Nat := v / 2 ^ lo % 2 ^ width

end Sys2Proof
end

