-- ==== Sys2Proof/Syntax.lean ====
section
/-! DEFINITION. The commands of the DSE, one constructor per row of the opcode map (30_encoding.md
R76). A constructor holds exactly the fields its format uses (R74), as the integers R73 reads them
as; IMM stays a bit pattern, since no command converts it (R73). -/

namespace Sys2Proof

/-- A command (R76). Fields: `pr` the pointer register index, `lg` the log2 of a circular buffer's
length, `cnt` the count, `a` `b` `c` DMEM word addresses, `d` the head advance, `imm` the immediate
(R72). -/
inductive Instr where
  /-- 0x00 NOP, format NONE (R113). -/
  | nop
  /-- 0x01 SETPARAM, format KI (R114): `cnt` is the parameter id. -/
  | setparam (cnt : Nat) (imm : Word)
  /-- 0x02 SETP, format RK (R115). -/
  | setp (pr : Fin 8) (cnt : Nat)
  /-- 0x03 FILL, format AKI (R116). -/
  | fill (a cnt : Nat) (imm : Word)
  /-- 0x04 COPY, format ABK (R117). -/
  | copy (a b cnt : Nat)
  /-- 0x10 INIT, format K (R88): `cnt` is log2 N. -/
  | init (cnt : Nat)
  /-- 0x11 FFT_FWD, format AB (R89). -/
  | fftFwd (a b : Nat)
  /-- 0x12 FFT_INV, format AB (R90). -/
  | fftInv (a b : Nat)
  /-- 0x13 FFTSHIFT, format A (R91). -/
  | fftshift (a : Nat)
  /-- 0x14 MAG, format AB (R92). -/
  | mag (a b : Nat)
  /-- 0x15 PHASE, format AB (R93). -/
  | phase (a b : Nat)
  /-- 0x16 POLAR, format ABC (R94). -/
  | polar (a b c : Nat)
  /-- 0x20 PRINCARG, format ABK (R97). -/
  | princarg (a b cnt : Nat)
  /-- 0x21 PHASEDIFF, format ABCK (R98). -/
  | phasediff (a b c cnt : Nat)
  /-- 0x22 PV_UNWRAP, format ABCK (R99): `cnt` is the hop. -/
  | pvUnwrap (a b c cnt : Nat)
  /-- 0x30 VMUL, format ABCK (R101). -/
  | vmul (a b c cnt : Nat)
  /-- 0x31 ZPAD, format ABK (R102). -/
  | zpad (a b cnt : Nat)
  /-- 0x32 HIST_PUSH, format CA (R103). -/
  | histPush (pr : Fin 8) (lg cnt a b : Nat)
  /-- 0x33 HIST_EXTRACT, format CC (R104). -/
  | histExtract (pr : Fin 8) (lg cnt b c : Nat)
  /-- 0x34 OLA_ADD, format CAD (R105). -/
  | olaAdd (pr : Fin 8) (lg cnt a b d : Nat)
  /-- 0x35 OLA_DRAIN, format CC (R106). -/
  | olaDrain (pr : Fin 8) (lg cnt b c : Nat)
  /-- 0x36 OLA_DRAIN_MIX, format CAC (R107). -/
  | olaDrainMix (pr : Fin 8) (lg cnt a b c : Nat)
  /-- 0x37 SPLIT_CARRY, format ABCK (R108). -/
  | splitCarry (a b c cnt : Nat)
  /-- 0x40 CMUL, format ABC (R110). -/
  | cmul (a b c : Nat)
  /-- 0x41 CMAT_APPLY, format ABC (R111). -/
  | cmatApply (a b c : Nat)
  /-- 0x42 CMAT_INV, format AB (R112). -/
  | cmatInv (a b : Nat)
  deriving DecidableEq, Repr

end Sys2Proof
end

