-- ==== Sys2Proof/WellFormed.lean ====
section
/-! DEFINITION. Which terms of Instr are commands: every field fits its width (30_encoding.md R72,
R73). Values a field admits and a command then faults on (LG = 17, an unknown parameter id) are
well formed; Check meets them (60_exceptions.md R120). -/

namespace Sys2Proof

/-- A 16-bit field: CNT, A, B, C or D (R72). -/
def fits16 (v : Nat) : Bool := decide (v < 2 ^ 16)

/-- The 5-bit field LG (R72). -/
def fits5 (v : Nat) : Bool := decide (v < 2 ^ 5)

/-- Every field of the command fits its width (R72, R73). -/
def Instr.wf : Instr → Bool
  | .nop => true
  | .setparam cnt _ => fits16 cnt
  | .setp _ cnt => fits16 cnt
  | .fill a cnt _ => fits16 a && fits16 cnt
  | .copy a b cnt => fits16 a && fits16 b && fits16 cnt
  | .init cnt => fits16 cnt
  | .fftFwd a b => fits16 a && fits16 b
  | .fftInv a b => fits16 a && fits16 b
  | .fftshift a => fits16 a
  | .mag a b => fits16 a && fits16 b
  | .phase a b => fits16 a && fits16 b
  | .polar a b c => fits16 a && fits16 b && fits16 c
  | .princarg a b cnt => fits16 a && fits16 b && fits16 cnt
  | .phasediff a b c cnt => fits16 a && fits16 b && fits16 c && fits16 cnt
  | .pvUnwrap a b c cnt => fits16 a && fits16 b && fits16 c && fits16 cnt
  | .vmul a b c cnt => fits16 a && fits16 b && fits16 c && fits16 cnt
  | .zpad a b cnt => fits16 a && fits16 b && fits16 cnt
  | .histPush _ lg cnt a b => fits5 lg && fits16 cnt && fits16 a && fits16 b
  | .histExtract _ lg cnt b c => fits5 lg && fits16 cnt && fits16 b && fits16 c
  | .olaAdd _ lg cnt a b d => fits5 lg && fits16 cnt && fits16 a && fits16 b && fits16 d
  | .olaDrain _ lg cnt b c => fits5 lg && fits16 cnt && fits16 b && fits16 c
  | .olaDrainMix _ lg cnt a b c => fits5 lg && fits16 cnt && fits16 a && fits16 b && fits16 c
  | .splitCarry a b c cnt => fits16 a && fits16 b && fits16 c && fits16 cnt
  | .cmul a b c => fits16 a && fits16 b && fits16 c
  | .cmatApply a b c => fits16 a && fits16 b && fits16 c
  | .cmatInv a b => fits16 a && fits16 b

end Sys2Proof
end

