-- ==== Sys2Proof/Decode.lean ====
section
/-! DEFINITION. Decoding and encoding (30_encoding.md R71 to R80). Decoding is total on all 2^128
commands and needs nothing but the command's bits (R79, R80). -/

namespace Sys2Proof

/-! ### Fields (R72) -/

/-- The fields of a command, at fixed positions for every opcode (R72). -/
structure Fields where
  pr : Fin 8
  lg : Nat
  cnt : Nat
  a : Nat
  b : Nat
  c : Nat
  d : Nat
  imm : Word
  deriving DecidableEq, Repr

/-- OPC = CMD[7:0] (R72). -/
def opcOf (w : Cmd) : Nat := field w.toNat 0 8

/-- The fields of a command (R72), zero-extended and unscaled (R73). -/
def fieldsOf (w : Cmd) : Fields where
  pr := Fin.ofNat 8 (field w.toNat 8 3)
  lg := field w.toNat 11 5
  cnt := field w.toNat 16 16
  a := field w.toNat 32 16
  b := field w.toNat 48 16
  c := field w.toNat 64 16
  d := field w.toNat 80 16
  imm := BitVec.ofNat 32 (field w.toNat 96 32)

/-! ### Formats (R74, R75) -/

/-- The 14 formats (R74). -/
inductive Format where
  | none | k | ki | rk | aki | a | ab | abc | abk | abck | ca | cc | cad | cac
  deriving DecidableEq, Repr

/-- The bits that must be zero: every field the format does not use (R75, and the masks of
opcode_table.json). -/
def Format.mustBeZero : Format → Cmd
  | .none => 0xFFFFFFFFFFFFFFFFFFFFFFFFFFFFFF00#128
  | .k => 0xFFFFFFFFFFFFFFFFFFFFFFFF0000FF00#128
  | .ki => 0x00000000FFFFFFFFFFFFFFFF0000FF00#128
  | .rk => 0xFFFFFFFFFFFFFFFFFFFFFFFF0000F800#128
  | .aki => 0x00000000FFFFFFFFFFFF00000000FF00#128
  | .a => 0xFFFFFFFFFFFFFFFFFFFF0000FFFFFF00#128
  | .ab => 0xFFFFFFFFFFFFFFFF00000000FFFFFF00#128
  | .abc => 0xFFFFFFFFFFFF000000000000FFFFFF00#128
  | .abk => 0xFFFFFFFFFFFFFFFF000000000000FF00#128
  | .abck => 0xFFFFFFFFFFFF0000000000000000FF00#128
  | .ca => 0xFFFFFFFFFFFFFFFF0000000000000000#128
  | .cc => 0xFFFFFFFFFFFF00000000FFFF00000000#128
  | .cad => 0xFFFFFFFF0000FFFF0000000000000000#128
  | .cac => 0xFFFFFFFFFFFF00000000000000000000#128

/-! ### The opcode map (R76) -/

/-- One row of the opcode map: the opcode's format, and the command its fields make. -/
structure OpRow where
  fmt : Format
  build : Fields → Instr

/-- The opcode map (R76); every other value is reserved (R77). -/
def opRow : Nat → Option OpRow
  | 0x00 => some ⟨.none, fun _ => .nop⟩
  | 0x01 => some ⟨.ki, fun f => .setparam f.cnt f.imm⟩
  | 0x02 => some ⟨.rk, fun f => .setp f.pr f.cnt⟩
  | 0x03 => some ⟨.aki, fun f => .fill f.a f.cnt f.imm⟩
  | 0x04 => some ⟨.abk, fun f => .copy f.a f.b f.cnt⟩
  | 0x10 => some ⟨.k, fun f => .init f.cnt⟩
  | 0x11 => some ⟨.ab, fun f => .fftFwd f.a f.b⟩
  | 0x12 => some ⟨.ab, fun f => .fftInv f.a f.b⟩
  | 0x13 => some ⟨.a, fun f => .fftshift f.a⟩
  | 0x14 => some ⟨.ab, fun f => .mag f.a f.b⟩
  | 0x15 => some ⟨.ab, fun f => .phase f.a f.b⟩
  | 0x16 => some ⟨.abc, fun f => .polar f.a f.b f.c⟩
  | 0x20 => some ⟨.abk, fun f => .princarg f.a f.b f.cnt⟩
  | 0x21 => some ⟨.abck, fun f => .phasediff f.a f.b f.c f.cnt⟩
  | 0x22 => some ⟨.abck, fun f => .pvUnwrap f.a f.b f.c f.cnt⟩
  | 0x30 => some ⟨.abck, fun f => .vmul f.a f.b f.c f.cnt⟩
  | 0x31 => some ⟨.abk, fun f => .zpad f.a f.b f.cnt⟩
  | 0x32 => some ⟨.ca, fun f => .histPush f.pr f.lg f.cnt f.a f.b⟩
  | 0x33 => some ⟨.cc, fun f => .histExtract f.pr f.lg f.cnt f.b f.c⟩
  | 0x34 => some ⟨.cad, fun f => .olaAdd f.pr f.lg f.cnt f.a f.b f.d⟩
  | 0x35 => some ⟨.cc, fun f => .olaDrain f.pr f.lg f.cnt f.b f.c⟩
  | 0x36 => some ⟨.cac, fun f => .olaDrainMix f.pr f.lg f.cnt f.a f.b f.c⟩
  | 0x37 => some ⟨.abck, fun f => .splitCarry f.a f.b f.c f.cnt⟩
  | 0x40 => some ⟨.abc, fun f => .cmul f.a f.b f.c⟩
  | 0x41 => some ⟨.abc, fun f => .cmatApply f.a f.b f.c⟩
  | 0x42 => some ⟨.ab, fun f => .cmatInv f.a f.b⟩
  | _ => none

/-! ### Decoding (R80) -/

/-- Why a command is illegal as an encoding (R80). -/
inductive Illegal where
  /-- OPC is reserved (R77). -/
  | illegalOpcode
  /-- A field the format does not use is not zero (R75). -/
  | reservedField
  deriving DecidableEq, Repr

/-- The result of decoding: a command, or the reason there is none. -/
inductive Decoded where
  | ok (i : Instr)
  | illegal (why : Illegal)
  deriving DecidableEq, Repr

/-- R80 `decode`. -/
def decode (w : Cmd) : Decoded :=
  match opRow (opcOf w) with
  | .none => .illegal .illegalOpcode
  | .some row =>
    if w &&& row.fmt.mustBeZero ≠ 0#128 then .illegal .reservedField
    else .ok (row.build (fieldsOf w))

/-- R71: the command whose words are W0, W1, W2 and W3. -/
def cmdOfWords (w0 w1 w2 w3 : Word) : Cmd := w3 ++ w2 ++ w1 ++ w0

/-- Word `k` (0 to 3) of a command (R71). -/
def wordOfCmd (w : Cmd) (k : Nat) : Word := BitVec.ofNat 32 (field w.toNat (32 * k) 32)

/-- The instruction this decoder reads from an instruction whose bits are `w`, numbered as
opcode_table.json numbers them. Every command is 128 bits (R71), so the bits at and above `nbits`
are zero. -/
def decodeTableWord (nbits w : Nat) : Option Instr :=
  match decode (BitVec.ofNat 128 (w % 2 ^ nbits)) with
  | .ok i => some i
  | .illegal _ => none

/-! ### Encoding (R72, R74, R76) -/

/-- All fields zero: what the fields a format does not use hold (R75). -/
def noFields : Fields := ⟨0, 0, 0, 0, 0, 0, 0, 0#32⟩

/-- The opcode of a command (R76). -/
def Instr.opc : Instr → Nat
  | .nop => 0x00
  | .setparam _ _ => 0x01
  | .setp _ _ => 0x02
  | .fill _ _ _ => 0x03
  | .copy _ _ _ => 0x04
  | .init _ => 0x10
  | .fftFwd _ _ => 0x11
  | .fftInv _ _ => 0x12
  | .fftshift _ => 0x13
  | .mag _ _ => 0x14
  | .phase _ _ => 0x15
  | .polar _ _ _ => 0x16
  | .princarg _ _ _ => 0x20
  | .phasediff _ _ _ _ => 0x21
  | .pvUnwrap _ _ _ _ => 0x22
  | .vmul _ _ _ _ => 0x30
  | .zpad _ _ _ => 0x31
  | .histPush _ _ _ _ _ => 0x32
  | .histExtract _ _ _ _ _ => 0x33
  | .olaAdd _ _ _ _ _ _ => 0x34
  | .olaDrain _ _ _ _ _ => 0x35
  | .olaDrainMix _ _ _ _ _ _ => 0x36
  | .splitCarry _ _ _ _ => 0x37
  | .cmul _ _ _ => 0x40
  | .cmatApply _ _ _ => 0x41
  | .cmatInv _ _ => 0x42

/-- The format of a command (R74). -/
def Instr.format : Instr → Format
  | .nop => .none
  | .setparam _ _ => .ki
  | .setp _ _ => .rk
  | .fill _ _ _ => .aki
  | .copy _ _ _ => .abk
  | .init _ => .k
  | .fftFwd _ _ => .ab
  | .fftInv _ _ => .ab
  | .fftshift _ => .a
  | .mag _ _ => .ab
  | .phase _ _ => .ab
  | .polar _ _ _ => .abc
  | .princarg _ _ _ => .abk
  | .phasediff _ _ _ _ => .abck
  | .pvUnwrap _ _ _ _ => .abck
  | .vmul _ _ _ _ => .abck
  | .zpad _ _ _ => .abk
  | .histPush _ _ _ _ _ => .ca
  | .histExtract _ _ _ _ _ => .cc
  | .olaAdd _ _ _ _ _ _ => .cad
  | .olaDrain _ _ _ _ _ => .cc
  | .olaDrainMix _ _ _ _ _ _ => .cac
  | .splitCarry _ _ _ _ => .abck
  | .cmul _ _ _ => .abc
  | .cmatApply _ _ _ => .abc
  | .cmatInv _ _ => .ab

/-- The fields of a command, zero where its format has none (R74, R75). -/
def Instr.fields : Instr → Fields
  | .nop => noFields
  | .setparam cnt imm => { noFields with cnt, imm }
  | .setp pr cnt => { noFields with pr, cnt }
  | .fill a cnt imm => { noFields with a, cnt, imm }
  | .copy a b cnt => { noFields with a, b, cnt }
  | .init cnt => { noFields with cnt }
  | .fftFwd a b => { noFields with a, b }
  | .fftInv a b => { noFields with a, b }
  | .fftshift a => { noFields with a }
  | .mag a b => { noFields with a, b }
  | .phase a b => { noFields with a, b }
  | .polar a b c => { noFields with a, b, c }
  | .princarg a b cnt => { noFields with a, b, cnt }
  | .phasediff a b c cnt => { noFields with a, b, c, cnt }
  | .pvUnwrap a b c cnt => { noFields with a, b, c, cnt }
  | .vmul a b c cnt => { noFields with a, b, c, cnt }
  | .zpad a b cnt => { noFields with a, b, cnt }
  | .histPush pr lg cnt a b => { noFields with pr, lg, cnt, a, b }
  | .histExtract pr lg cnt b c => { noFields with pr, lg, cnt, b, c }
  | .olaAdd pr lg cnt a b d => { noFields with pr, lg, cnt, a, b, d }
  | .olaDrain pr lg cnt b c => { noFields with pr, lg, cnt, b, c }
  | .olaDrainMix pr lg cnt a b c => { noFields with pr, lg, cnt, a, b, c }
  | .splitCarry a b c cnt => { noFields with a, b, c, cnt }
  | .cmul a b c => { noFields with a, b, c }
  | .cmatApply a b c => { noFields with a, b, c }
  | .cmatInv a b => { noFields with a, b }

/-- A command word from an opcode and its fields, at the positions of R72. -/
def packFields (opc : Nat) (f : Fields) : Cmd :=
  BitVec.ofNat 128 (opc + f.pr.val * 2 ^ 8 + f.lg * 2 ^ 11 + f.cnt * 2 ^ 16 + f.a * 2 ^ 32 +
    f.b * 2 ^ 48 + f.c * 2 ^ 64 + f.d * 2 ^ 80 + f.imm.toNat * 2 ^ 96)

/-- The 128 bits of a command (R72, R74, R76). -/
def encode (i : Instr) : Cmd := packFields i.opc i.fields

end Sys2Proof
end

