-- ==== Sys2Proof/Machine/Float.lean ====
section
/-! DEFINITION. IEEE 754 binary32 (00_scope.md R17, R18) and the complex primitives (R19).

Every finite binary32 value is an integer multiple of 2^-149. Each operation below turns its
operands into such integers, computes the exact result, and rounds once, in `roundMag`. -/

namespace Sys2Proof.Machine

/-! ### Reading a pattern -/

/-- The sign bit, bit 31 (R54). -/
def signBit (x : Word) : Bool := field x.toNat 31 1 == 1

/-- The biased exponent field. -/
def expField (x : Word) : Nat := field x.toNat 23 8

/-- The fraction field. -/
def fracField (x : Word) : Nat := field x.toNat 0 23

/-- R17 `isnan`. -/
def isNaN (x : Word) : Bool := expField x == 255 && fracField x != 0

/-- An infinity of either sign. -/
def isInf (x : Word) : Bool := expField x == 255 && fracField x == 0

/-- Neither an infinity nor a NaN. -/
def isFin (x : Word) : Bool := expField x != 255

/-- A zero of either sign. -/
def isZero (x : Word) : Bool := expField x == 0 && fracField x == 0

/-- The integer significand: subnormals keep their gradual underflow (R17). -/
def signif (x : Word) : Nat := if expField x = 0 then fracField x else 2 ^ 23 + fracField x

/-- The exponent of the significand's unit, above 2^-149. -/
def scale (x : Word) : Nat := expField x - 1

/-- The magnitude in units of 2^-149 (an infinity counts as 2^277, above every finite value). -/
def magOf (x : Word) : Nat := signif x * 2 ^ scale x

/-- The signed value in units of 2^-149. -/
def fixedOf (x : Word) : Int := if signBit x then -(magOf x : Int) else (magOf x : Int)

/-- The exact value of a finite pattern. -/
def valueOf (x : Word) : ℚ := (fixedOf x : ℚ) / 2 ^ 149

/-- One unit in the last place of a finite pattern. -/
def ulpOf (x : Word) : ℚ := 2 ^ scale x / 2 ^ 149

/-! ### Constants (R17, R18) -/

/-- The canonical quiet NaN (R17). -/
def canonNaN : Word := 0x7FC00000#32
/-- +infinity. -/
def posInf : Word := 0x7F800000#32
/-- `ZERO`, +0 (R18). -/
def fZERO : Word := 0x00000000#32
/-- −0. -/
def negZero : Word := 0x80000000#32
/-- `ONE` (R18). -/
def fONE : Word := 0x3F800000#32
/-- 0.5, the lower clamp of the pitch ratio (R114). -/
def fHALF : Word := 0x3F000000#32
/-- 2.0, the upper clamp of the pitch ratio (R114). -/
def fTWO : Word := 0x40000000#32
/-- `PI_F32` (R18). -/
def piF32 : Word := 0x40490FDB#32
/-- `TWO_PI_F32` (R18). -/
def twoPiF32 : Word := 0x40C90FDB#32
/-- `HALF_PI_F32` (R18). -/
def halfPiF32 : Word := 0x3FC90FDB#32
/-- `DET_FLOOR` = f32(1e-10) (R18). -/
def detFloor : Word := 0x2EDBE6FF#32

/-! ### Rounding -/

/-- The 31 magnitude bits of the exact magnitude `num / den`, in units of 2^-149, rounded once to
nearest, ties to even, overflowing to infinity (R17). `den` is positive.
The significand is taken at unit `2 ^ k`, with `k` the least exponent that leaves it below 2^24;
`k * 2^23 + q` is then the packed exponent and fraction, carries out of `q` included. -/
def roundMag (num den : Nat) : Nat :=
  let k := (num / den).log2 - 23
  let unit := den * 2 ^ k
  let q := num / unit
  let r := num % unit
  let q' := if 2 * r > unit ∨ (2 * r = unit ∧ q % 2 = 1) then q + 1 else q
  min (k * 2 ^ 23 + q') 0x7F800000

/-- A pattern from its sign and its 31 magnitude bits. -/
def pack (neg : Bool) (bits : Nat) : Word := BitVec.ofNat 32 (if neg then 2 ^ 31 + bits else bits)

/-- `f32` of the exact non-negative rational `num / den` (R17); an exact zero gives +0. -/
def f32OfRatio (num den : Nat) : Word := pack false (roundMag (num * 2 ^ 149) den)

/-! ### Operations (R17) -/

/-- `neg`: flips bit 31 and nothing else. -/
def fneg (x : Word) : Word := x ^^^ 0x80000000#32

/-- `add`. -/
def fadd (a b : Word) : Word :=
  if isNaN a || isNaN b then canonNaN
  else if isInf a then (if isInf b && signBit a != signBit b then canonNaN else a)
  else if isInf b then b
  else
    let e := fixedOf a + fixedOf b
    if e = 0 then (if signBit a && signBit b then negZero else fZERO)
    else pack (decide (e < 0)) (roundMag e.natAbs 1)

/-- `sub`: IEEE 754 subtraction is the addition of the negated operand, NaN results canonical. -/
def fsub (a b : Word) : Word := fadd a (fneg b)

/-- `mul`. -/
def fmul (a b : Word) : Word :=
  let neg := signBit a != signBit b
  if isNaN a || isNaN b then canonNaN
  else if isInf a || isInf b then
    (if isZero a || isZero b then canonNaN else pack neg 0x7F800000)
  else pack neg (roundMag (magOf a * magOf b) (2 ^ 149))

/-- `div`. -/
def fdiv (a b : Word) : Word :=
  let neg := signBit a != signBit b
  if isNaN a || isNaN b then canonNaN
  else if isInf a then (if isInf b then canonNaN else pack neg 0x7F800000)
  else if isInf b then pack neg 0
  else if isZero b then (if isZero a then canonNaN else pack neg 0x7F800000)
  else pack neg (roundMag (magOf a * 2 ^ 149) (magOf b))

/-- The integer square root, one bit of the result a step, from bit `fuel - 1` down. -/
def isqrtFrom (n : Nat) : Nat → Nat → Nat
  | 0, r => r
  | fuel + 1, r => isqrtFrom n fuel (if (r + 2 ^ fuel) * (r + 2 ^ fuel) ≤ n then r + 2 ^ fuel else r)

/-- The integer square root: the greatest `r` with `r * r ≤ n`. -/
def isqrt (n : Nat) : Nat := isqrtFrom n (n.log2 / 2 + 1) 0

/-- `sqrt`. In units of 2^-149 the root of `m` is √(m·2^149), which has at least 75 bits, so half
a unit stands for any inexact remainder: no rounding boundary lies between two integers here. -/
def fsqrt (x : Word) : Word :=
  if isNaN x then canonNaN
  else if isZero x then x
  else if signBit x then canonNaN
  else if isInf x then x
  else
    let n := magOf x * 2 ^ 149
    let r := isqrt n
    pack false (roundMag (if r * r = n then 2 * r else 2 * r + 1) 2)

/-- `floor`: roundToIntegralTowardNegative, exact; a zero, an infinity stays. A NaN gives the
canonical NaN (log entry 9, DESIGN CHOICE, safe: `floor` is only ever applied to a result of
`div`, whose NaN is already canonical). -/
def ffloor (x : Word) : Word :=
  if isNaN x then canonNaN
  else if isInf x || isZero x then x
  else
    let f := fixedOf x / 2 ^ 149
    pack (decide (f < 0)) (roundMag (f.natAbs * 2 ^ 149) 1)

/-- `lt`: compareQuietLess. -/
def flt (a b : Word) : Bool := !isNaN a && !isNaN b && decide (fixedOf a < fixedOf b)

/-! ### What "rounded once to nearest, ties to even" means, for statements about the above -/

/-- `w` is a finite binary32 value nearest to the real `x`, and where another finite value is as
near, `w` has the even significand (R17). -/
def NearestEven (x : ℝ) (w : Word) : Prop :=
  isFin w = true ∧ ∀ y : Word, isFin y = true →
    |(valueOf w : ℝ) - x| ≤ |(valueOf y : ℝ) - x| ∧
    (|(valueOf w : ℝ) - x| = |(valueOf y : ℝ) - x| → valueOf y ≠ valueOf w → fracField w % 2 = 0)

/-! ### Complex values (R19) -/

/-- A complex value, a pair of binary32 values (R19). -/
structure Cplx where
  re : Word
  im : Word
  deriving DecidableEq, Repr

/-- R19 `cadd`. -/
def cadd (a b : Cplx) : Cplx := ⟨fadd a.re b.re, fadd a.im b.im⟩
/-- R19 `csub`. -/
def csub (a b : Cplx) : Cplx := ⟨fsub a.re b.re, fsub a.im b.im⟩
/-- R19 `cmul`. -/
def cmul (a b : Cplx) : Cplx :=
  ⟨fsub (fmul a.re b.re) (fmul a.im b.im), fadd (fmul a.re b.im) (fmul a.im b.re)⟩
/-- R19 `conj`. -/
def cconj (a : Cplx) : Cplx := ⟨a.re, fneg a.im⟩
/-- R19 `cneg`. -/
def cneg (a : Cplx) : Cplx := ⟨fneg a.re, fneg a.im⟩

end Sys2Proof.Machine
end

