-- ==== Sys2Proof/Config.lean ====
section
/-! DEFINITION. What an instance of the DSE fixes, and the values the spec leaves open
(00_scope.md R7 to R11, 92_eei_decisions.md D5, D9, 93_implementation_defined.md section 2). -/

namespace Sys2Proof

/-! ### The instance parameters -/

/-- The parameters of one instance: constants of the hardware that no step changes. They stand in
State (HWCFG reads three of them, R26), so that a statement about every state is a statement about
every instance (log entry 3). -/
structure HwCfg where
  /-- `LOG2N_MAX`, R7. -/
  log2nMax : Nat
  /-- `DMEM_LOG2`, R8. -/
  dmemLog2 : Nat
  /-- `CQ_DEPTH`, R9. -/
  cqDepth : Nat
  /-- `BASE`, the byte address of the MMIO region, R11. -/
  base : Nat
  deriving DecidableEq, Repr

/-- The legal values of the parameters (R7, R8, R9, R11). -/
def HwCfg.legal (h : HwCfg) : Bool :=
  decide (2 ≤ h.log2nMax) && decide (h.log2nMax ≤ 13) &&
  decide (h.log2nMax + 3 ≤ h.dmemLog2) && decide (h.dmemLog2 ≤ 16) &&
  decide (1 ≤ h.cqDepth) && decide (h.cqDepth ≤ 255) &&
  decide (h.base % 0x80000 = 0)

/-- `NMAX` (R7). -/
def HwCfg.nMax (h : HwCfg) : Nat := 2 ^ h.log2nMax

/-- `DMEM_WORDS` (R8). -/
def HwCfg.dmemWords (h : HwCfg) : Nat := 2 ^ h.dmemLog2

/-- The suggested instance (R7, R8, R9). `BASE` has no suggested value; 0 is a legal one
(log entry 3, DESIGN CHOICE, unsafe for a statement about State.reset alone). -/
def HwCfg.suggested : HwCfg := ⟨12, 16, 16, 0⟩

/-! ### The trigonometric parameter functions (R10) -/

/-- A finite binary32 value in [−bound, bound]. -/
def finWithin (bound w : Word) : Prop := Machine.isFin w = true ∧ |Machine.valueOf w| ≤ Machine.valueOf bound

/-- Within `err` units in the last place of `w` from the real `x` (R10). -/
def ulpsFrom (err : Nat) (x : ℝ) (w : Word) : Prop :=
  |(Machine.valueOf w : ℝ) - x| ≤ (err : ℝ) * (Machine.ulpOf w : ℝ)

/-- −1 for an operand with its sign bit set, else 1. -/
def signOf (y : Word) : ℝ := if Machine.signBit y then -1 else 1

/-- `w` is within `err` units in the last place of the exact arc tangent of `y` and `x`, none of them
a NaN (R10, last law: "every other operand"; 93_implementation_defined.md S18). With finite operands
that value is the argument of the complex number `x + y·i`. With one infinite operand it is the limit
of that argument (DEDUCED), and with two it is the odd multiple of π/4 that IEEE 754 and the C library
give, the conventions R10 names for its zeros (PRESUMED, unsafe): log entry 8. -/
def atan2Near (err : Nat) (y x w : Word) : Prop :=
  (Machine.isFin y = true → Machine.isFin x = true →
    ulpsFrom err (Complex.arg ⟨Machine.valueOf x, Machine.valueOf y⟩) w) ∧
  (Machine.isFin y = true → Machine.isInf x = true →
    ulpsFrom err (signOf y * if Machine.signBit x then Real.pi else 0) w) ∧
  (Machine.isInf y = true → Machine.isFin x = true → ulpsFrom err (signOf y * (Real.pi / 2)) w) ∧
  (Machine.isInf y = true → Machine.isInf x = true →
    ulpsFrom err (signOf y * if Machine.signBit x then 3 * Real.pi / 4 else Real.pi / 4) w)

/-- +0 lies within ±1.0. -/
theorem finWithin_one_zero : finWithin Machine.fONE Machine.fZERO := by
  constructor <;> decide +kernel

/-- +0 lies within ±PI_F32. -/
theorem finWithin_pi_zero : finWithin Machine.piF32 Machine.fZERO := by
  constructor <;> decide +kernel

/-- With 2^152 units allowed, +0 is near every real of magnitude at most 8. -/
theorem ulpsFrom_zero {x : ℝ} (h : |x| ≤ 8) : ulpsFrom (2 ^ 152) x Machine.fZERO := by
  have hu : ((Machine.ulpOf Machine.fZERO : ℚ) : ℝ) = 1 / 2 ^ 149 := by
    norm_num [Machine.ulpOf, Machine.scale, Machine.expField, field, Machine.fZERO]
  have h0 : ((Machine.valueOf Machine.fZERO : ℚ) : ℝ) = 0 := by
    norm_num [Machine.valueOf, Machine.fixedOf, Machine.magOf, Machine.signif, Machine.scale,
      Machine.expField, Machine.fracField, Machine.signBit, field, Machine.fZERO]
  rw [ulpsFrom, hu, h0, zero_sub, abs_neg]
  exact h.trans (by norm_num)

/-- So +0 is near every arc tangent. -/
theorem atan2Near_zero (y x : Word) : atan2Near (2 ^ 152) y x Machine.fZERO := by
  have hp := Real.pi_pos
  have h4 := Real.pi_le_four
  have hs : |signOf y| = 1 := by unfold signOf; split <;> norm_num
  refine ⟨fun _ _ => ulpsFrom_zero ((Complex.abs_arg_le_pi _).trans (by linarith)), ?_, ?_, ?_⟩ <;>
    intro _ _ <;> apply ulpsFrom_zero <;> rw [abs_mul, hs, one_mul, abs_le] <;> constructor <;>
    (try split) <;> linarith

/-- A trigonometric unit: the parameter functions `SIN32`, `COS32` and `ATAN2_32` on the operands
for which R10 gives no special value, the parameter `TRIG_ERR_ULP`, and the laws R10 states there.
(The special operands are settled in `Machine.sin32`, `cos32` and `atan2F32`.) The defaults only
show that the laws can be met; no value of them can be proved of `Config.trig`. -/
structure TrigUnit where
  /-- `TRIG_ERR_ULP` (R10). -/
  errUlp : Nat := 2 ^ 152
  /-- `SIN32` on a finite operand. -/
  sin : Word → Word := fun _ => Machine.fZERO
  /-- `COS32` on a finite operand. -/
  cos : Word → Word := fun _ => Machine.fZERO
  /-- `ATAN2_32`, arguments in the order `(y, x)`. -/
  atan2 : Word → Word → Word := fun _ _ => Machine.fZERO
  /-- R10: results of the sine lie in [−1.0, +1.0]. -/
  sin_range : ∀ x, finWithin Machine.fONE (sin x) := by exact fun _ => finWithin_one_zero
  /-- R10: results of the cosine lie in [−1.0, +1.0]. -/
  cos_range : ∀ x, finWithin Machine.fONE (cos x) := by exact fun _ => finWithin_one_zero
  /-- R10: results of the arc tangent lie in [−PI_F32, +PI_F32]. -/
  atan2_range : ∀ y x, finWithin Machine.piF32 (atan2 y x) := by exact fun _ _ => finWithin_pi_zero
  /-- R10: the sine is within `TRIG_ERR_ULP` units in the last place of the exact real value. -/
  sin_near : ∀ x, Machine.isFin x = true → ulpsFrom errUlp (Real.sin (Machine.valueOf x)) (sin x) := by
    exact fun _ _ => ulpsFrom_zero ((Real.abs_sin_le_one _).trans (by norm_num))
  /-- R10: the cosine is within `TRIG_ERR_ULP` units in the last place of the exact real value. -/
  cos_near : ∀ x, Machine.isFin x = true → ulpsFrom errUlp (Real.cos (Machine.valueOf x)) (cos x) := by
    exact fun _ _ => ulpsFrom_zero ((Real.abs_cos_le_one _).trans (by norm_num))
  /-- R10: the arc tangent is within `TRIG_ERR_ULP` units in the last place of the exact real value,
  at infinite operands as at finite ones (log entry 8). -/
  atan2_near : ∀ y x, atan2Near errUlp y x (atan2 y x) := by exact atan2Near_zero
  deriving Inhabited

/-- The instance's trigonometric unit: open in the spec (R10, D5), opaque here, so only its laws
can be used (log entry 8; safe but for the law at two infinite operands). -/
opaque Config.trig : TrigUnit

/-! ### Free values -/

/-- The value draw number `n` gives DMEM word `a`, where a word becomes unspecified: the written
extents of a command that a soft reset abandons (R135, "any 32-bit value, as a choice of the run";
log entry 5). -/
opaque Config.freeWord : (n a : Nat) → Word

/-- The values draw number `n` gives the transform scratch at a reset (R53, R46; log entry 6). -/
opaque Config.freeScratch : (n i : Nat) → Word × Word

end Sys2Proof
end

