-- ==== Sys2Proof/Machine/State.lean ====
section
/-! DEFINITION. The state of the DSE (10_state.md), what makes a step stop, and reset (R53). -/

namespace Sys2Proof.Machine

/-! ### Parts of the state -/

/-- A fault cause (60_exceptions.md R119). CAUSE holds its code. -/
inductive Cause where
  /-- 0x00: no fault. -/
  | none
  /-- 0x01: OPC is reserved (R77). -/
  | illegalOpcode
  /-- 0x02: a field the format does not use is not zero (R75). -/
  | reservedField
  /-- 0x03: the command uses N and INIT_DONE = 0. -/
  | notInit
  /-- 0x04: a used field holds an illegal value (R120, table 2). -/
  | fieldRange
  /-- 0x05: an operand extent does not fit in DMEM (R62, R120 table 3). -/
  | addrRange
  /-- 0x06: a host write to CMD3 finds the queue full (R123). -/
  | cqOverflow
  deriving DecidableEq, Repr

/-- DMEM (R44), as cells of (byte address, byte): byte lane `k` of word `i` is at `4·i + k` (R54,
R60). Canonical form: addresses strictly rising, and no cell equal to what an unlisted byte reads
as. -/
abbrev Mem := List Host.Cell

/-- What an unlisted byte of DMEM reads as. The spec gives no power-on content (R136); an arbitrary
content is an argument of the reset move and part of every state, and this byte shows only in
State.reset (log entry 4, DESIGN CHOICE, unsafe for a statement about State.reset alone). -/
def unlistedByte : Byte := 0#8

/-- The transform scratch, the two arrays SR and SI (R46). -/
structure Scratch where
  sr : List Word
  si : List Word
  deriving DecidableEq, Repr

/-- A host move (20_memory.md section 4). Addresses are byte addresses on the host bus. -/
inductive HostMove where
  /-- A read of `bytes` bytes at `addr`; only 4 aligned bytes are defined (R55). -/
  | read (addr bytes : Nat)
  /-- A write of `bytes` bytes at `addr`; only 4 aligned bytes are defined (R55). -/
  | write (addr bytes : Nat) (value : Word)
  /-- The platform asserts the reset input; `dmem` is the DMEM content the run takes after it
  (R134, R136). -/
  | assertReset (dmem : List Host.Cell)
  /-- An access by a second bus master, outside the spec (R21). -/
  | secondMaster
  deriving DecidableEq, Repr

/-- Whose step comes next: any interleaving of the two agents is a list of turns
(93_implementation_defined.md S17). -/
inductive Turn where
  | engine
  | host (mv : HostMove)
  deriving DecidableEq, Repr

/-! ### The state -/

/-- The state of one DSE. STATUS.BUSY, STATUS.ACTIVE, CQ_LEVEL and IRQ are computed from it
(Machine/Flags.lean); ID and the twiddle ROM are constants. -/
structure State where
  /-- HWCFG (R26) and BASE (R11): constants of the instance. -/
  hw : HwCfg
  /-- STATUS[2] INIT_DONE (R28). -/
  initDone : Bool
  /-- STATUS[3] FAULT (R28). -/
  faulted : Bool
  /-- STATUS[4] DONE (R28, R52). -/
  doneBit : Bool
  /-- STATUS[5] HCOLL (R28, R61). -/
  hcollBit : Bool
  /-- IRQ_EN[2:0] (R29). -/
  irqEn : BitVec 3
  /-- CAUSE (R30). -/
  cause : Cause
  /-- CMDCNT (R31). -/
  cmdcnt : BitVec 32
  /-- CFG.LOG2N (R33). -/
  log2n : BitVec 5
  /-- FAULT_CMD0..3 (R34), word `k` at bits `[32k+31:32k]`. -/
  faultCmd : Cmd
  /-- CMD0 (R35). -/
  cmd0 : Word
  /-- CMD1 (R35). -/
  cmd1 : Word
  /-- CMD2 (R35). -/
  cmd2 : Word
  /-- RATIO (R36). -/
  ratio : Word
  /-- INVRATIO (R37). -/
  invRatio : Word
  /-- BETA (R38). -/
  beta : Word
  /-- MIX (R39). -/
  mix : Word
  /-- OMMIX (R40). -/
  omMix : Word
  /-- P[0]..P[7] (R23). -/
  p : Vector (BitVec 16) 8
  /-- DMEM (R44). -/
  mem : Mem
  /-- SR, SI (R46). -/
  scratch : Scratch
  /-- The command queue Q, head first (R47). -/
  queue : List Cmd
  /-- CUR, present exactly while BUSY = 1 (R48). -/
  cur : Option Cmd
  /-- The turns still to come (the model's own field, log entry 2). -/
  turns : List Turn
  /-- What the last host read gave back (20_memory.md section 4; the model's own field, log entry 7). -/
  rdata : Word
  /-- How many draws of free values were made (the model's own field, log entry 5). -/
  freeCtr : Nat
  deriving DecidableEq, Repr

/-! ### What makes a step stop -/

/-- A stop with a fault. No command ends in one: the faults of 60_exceptions.md are entered as next
states (R121). -/
inductive Fault where
  /-- Raised by a host read or write whose address lies outside the DSE's 512 KiB region: the
  address does not exist in the DSE ("Everything outside the region belongs to the platform", R59).
  Safe: the model stops where the platform goes on (log entry 11, DESIGN CHOICE). -/
  | outsideRegion
  deriving DecidableEq, Repr

/-- A stop with a refusal. -/
inductive Refusal where
  /-- Raised by an arm of exec that has no meaning yet. Safe. -/
  | notModelled (mnemonic : String)
  /-- Raised by a host access that is not an aligned 32-bit one ("A model refuses such an access,
  with the refusal recorded; it does not guess an effect", R55). Safe. -/
  | undefinedAccess
  /-- Raised by an access of a second bus master ("Two masters driving one DSE is outside this
  spec", R21; U4 and S5 of 93_implementation_defined.md: refuse). Safe. -/
  | secondMaster
  deriving DecidableEq, Repr

/-! ### Reset (R53, R134) -/

/-- The state right after a power-on reset of an instance `hw` whose DMEM then holds `dmem`
(R53, R134, R136), with the turns `turns` to come. The scratch is unspecified there and cannot be
observed (R46): zeros stand for it (log entry 6). -/
def State.powerOn (hw : HwCfg) (dmem : Mem) (turns : List Turn) : State where
  hw := hw
  initDone := false
  faulted := false
  doneBit := false
  hcollBit := false
  irqEn := 0#3
  cause := .none
  cmdcnt := 0#32
  log2n := 0#5
  faultCmd := 0#128
  cmd0 := 0#32
  cmd1 := 0#32
  cmd2 := 0#32
  ratio := 0x3F800000#32
  invRatio := 0x3F800000#32
  beta := 0x00000000#32
  mix := 0x3F800000#32
  omMix := 0x00000000#32
  p := Vector.replicate 8 0#16
  mem := dmem
  scratch := ⟨List.replicate hw.nMax 0#32, List.replicate hw.nMax 0#32⟩
  queue := []
  cur := .none
  turns := turns
  rdata := 0#32
  freeCtr := 0

/-- The machine right after reset: the suggested instance, nothing listed in DMEM, no turn listed
(log entries 2, 3 and 4). -/
def State.reset : State := State.powerOn HwCfg.suggested [] []

end Sys2Proof.Machine
end

