-- ==== Sys2Proof/Machine/Ops.lean ====
section
/-! DEFINITION. The named operations over memory, registers and the queue, and the two ways a
command's complete step ends: FaultEntry (60_exceptions.md R121) and retirement (10_state.md R50). -/

namespace Sys2Proof.Machine

/-- The type of a step's outcome. -/
abbrev Out := Host.Outcome State Fault Refusal

/-! ### Loops (R16) -/

/-- `for i in 0 .. n-1: body`, in ascending order (R16): the state after the first `n` passes. -/
def loop {σ : Type} : Nat → (Nat → σ → σ) → σ → σ
  | 0, _, s => s
  | n + 1, body, s => body n (loop n body s)

/-! ### Bytes of DMEM -/

/-- The byte at a byte address. -/
def memByte : Mem → Nat → Byte
  | [], _ => unlistedByte
  | (k, v) :: m, a => if k = a then v else memByte m a

/-- The memory without any cell at `a`. -/
def eraseByte : Mem → Nat → Mem
  | [], _ => []
  | (k, v) :: m, a => if k = a then eraseByte m a else (k, v) :: eraseByte m a

/-- The memory with the cell `(a, v)` put before the first greater address. -/
def insertByte : Mem → Nat → Byte → Mem
  | [], a, v => [(a, v)]
  | (k, w) :: m, a, v => if k < a then (k, w) :: insertByte m a v else (a, v) :: (k, w) :: m

/-- Write one byte, keeping the canonical form: an unlisted byte's value is not listed. -/
def setByte (m : Mem) (a : Nat) (v : Byte) : Mem :=
  if v = unlistedByte then eraseByte m a else insertByte (eraseByte m a) a v

/-- Whether a list's keys rise strictly from above `lo`, with no unlisted byte's value. -/
def Mem.wfFrom : Nat → Mem → Bool
  | _, [] => true
  | lo, (k, v) :: m => decide (lo ≤ k) && decide (v ≠ unlistedByte) && Mem.wfFrom (k + 1) m

/-- The canonical form: addresses strictly rising, no cell equal to what an unlisted byte reads as. -/
def Mem.wf (m : Mem) : Bool := Mem.wfFrom 0 m

/-- Every listed byte lies in a DMEM of `words` words (R44). -/
def Mem.within (words : Nat) (m : Mem) : Bool := m.all fun cell => decide (cell.1 < 4 * words)

/-! ### Words of DMEM (R16, R54) -/

/-- Byte lane `k` of a word carries bits `[8k+7:8k]` (R54). -/
def laneOf (v : Word) (k : Nat) : Byte := BitVec.ofNat 8 (field v.toNat (8 * k) 8)

/-- The word whose byte lanes 0 to 3 are given (R54). -/
def wordOfLanes (b0 b1 b2 b3 : Byte) : Word :=
  BitVec.ofNat 32 (b0.toNat + b1.toNat * 2 ^ 8 + b2.toNat * 2 ^ 16 + b3.toNat * 2 ^ 24)

/-- `MemRead(a, 1)`, written `M[a]` (R16). -/
def memWord (m : Mem) (a : Nat) : Word :=
  wordOfLanes (memByte m (4 * a)) (memByte m (4 * a + 1)) (memByte m (4 * a + 2)) (memByte m (4 * a + 3))

/-- `MemWrite(a, 1, v)`, written `M[a] <- v` (R16). -/
def setWord (m : Mem) (a : Nat) (v : Word) : Mem :=
  setByte (setByte (setByte (setByte m (4 * a) (laneOf v 0)) (4 * a + 1) (laneOf v 1))
    (4 * a + 2) (laneOf v 2)) (4 * a + 3) (laneOf v 3)

/-- The canonical memory of `words` words that holds the listed cells, an earlier cell of an address
winning; cells beyond DMEM do not exist (R44, R136). -/
def memOfCells (words : Nat) : List Host.Cell → Mem
  | [] => []
  | (a, v) :: cells =>
    if a < 4 * words then setByte (memOfCells words cells) a v else memOfCells words cells

/-! ### Registers -/

/-- `P[PR]` as an unsigned integer (R23, R73). -/
def State.ptr (s : State) (pr : Fin 8) : Nat := (s.p.get pr).toNat

/-- `P[PR] <- v`: a 16-bit register stores the value mod 2^16 (R14, R23). -/
def State.setPtr (s : State) (pr : Fin 8) (v : Nat) : State :=
  { s with p := s.p.set pr.val (BitVec.ofNat 16 v) pr.isLt }

/-- The state with DMEM replaced. -/
def State.setMem (s : State) (m : Mem) : State := { s with mem := m }

/-- The state with the transform scratch replaced (R46). -/
def State.setScratch (s : State) (x : Scratch) : State := { s with scratch := x }

/-- `N = 2^CFG.LOG2N` (R12). -/
def State.nPoints (s : State) : Nat := 2 ^ s.log2n.toNat

/-- `DMEM_WORDS` of the instance (R8). -/
def State.dmemWords (s : State) : Nat := s.hw.dmemWords

/-! ### Fault entry, retirement and issue -/

/-- FaultEntry(cause, cmd) (R121): the first fault wins, and every queued command is discarded. -/
def State.faultEntry (s : State) (cause : Cause) (cmd : Cmd) : State :=
  if s.faulted then { s with queue := [] }
  else { s with faulted := true, cause := cause, faultCmd := cmd, queue := [] }

/-- The return from a fault: a CTRL write with CLRFAULT set (R122). Nothing resumes by itself. -/
def State.clearFault (s : State) : State :=
  if s.faulted then { s with faulted := false, cause := .none } else s

/-- CTRL.ABORT (R124): every queued command is discarded. -/
def State.abort (s : State) : State := { s with queue := [] }

/-- The end of a complete step: BUSY <- 0 (R50). -/
def State.endCommand (s : State) : State := { s with cur := .none }

/-- A fault-free completion (R50, R31, R52): CMDCNT + 1, DONE if the queue is empty, BUSY <- 0. -/
def State.retire (s : State) : State :=
  { s with cmdcnt := s.cmdcnt + 1#32, doneBit := s.doneBit || s.queue.isEmpty, cur := .none }

/-- Issue (R49): the head of the queue becomes CUR and BUSY <- 1. -/
def State.issue (s : State) : State :=
  match s.queue with
  | [] => s
  | c :: q => { s with cur := .some c, queue := q }

/-- The append of a push to a queue that is not full (R35). -/
def State.enqueue (s : State) (c : Cmd) : State := { s with queue := s.queue ++ [c] }

/-- Every push clears the staging registers (R35). -/
def State.clearStaging (s : State) : State := { s with cmd0 := 0#32, cmd1 := 0#32, cmd2 := 0#32 }

end Sys2Proof.Machine
end

