-- ==== Sys2Proof/Machine/Operands.lean ====
section
/-! DEFINITION. Operand forms: buffer layouts (00_scope.md R20), linear and circular addressing
(20_memory.md R63, 42_frame.md R100), operand extents (20_memory.md R62), and Check with its tables
(60_exceptions.md R120). -/

namespace Sys2Proof.Machine

/-! ### Buffer layouts (R20) -/

/-- `Z(z, k)`: bin `k` of the Z-buffer at `z` of an `n`-point spectrum (R20). -/
def zRead (n : Nat) (m : Mem) (z k : Nat) : Cplx := ⟨memWord m (z + k), memWord m (z + n + k)⟩

/-- `(M[z+k], M[z+N+k]) <- v`, the real word written first (R20, R110). -/
def zWrite (n : Nat) (m : Mem) (z k : Nat) (v : Cplx) : Mem :=
  setWord (setWord m (z + k) v.re) (z + n + k) v.im

/-- A 2×2 complex matrix, entries (row, column) (R109). -/
structure Mat2 where
  e11 : Cplx
  e12 : Cplx
  e21 : Cplx
  e22 : Cplx
  deriving DecidableEq, Repr

/-- Bin `k` of the matrix buffer at `a`: four Z-buffers in row-major order (R20). -/
def matRead (n : Nat) (m : Mem) (a k : Nat) : Mat2 :=
  ⟨zRead n m a k, zRead n m (a + 2 * n) k, zRead n m (a + 4 * n) k, zRead n m (a + 6 * n) k⟩

/-- Bin `k` of the matrix buffer at `a` written, entries in row-major order (R20, R112). -/
def matWrite (n : Nat) (m : Mem) (a k : Nat) (v : Mat2) : Mem :=
  zWrite n (zWrite n (zWrite n (zWrite n m a k v.e11) (a + 2 * n) k v.e12) (a + 4 * n) k v.e21)
    (a + 6 * n) k v.e22

/-! ### Circular addressing (R100) -/

/-- `h = P[PR] mod Lc`, with `Lc = 2^LG` (R100). -/
def headOf (s : State) (pr : Fin 8) (lg : Nat) : Nat := s.ptr pr % 2 ^ lg

/-- `slot(i) = B + ((h + i) mod Lc)`; `i` may be negative (R100). -/
def slotAt (b lg h : Nat) (i : Int) : Nat := b + ((((h : Int) + i) % (2 ^ lg : Nat)).toNat)

/-- `P[PR] <- (h + adv) mod Lc` (R100). -/
def State.advance (s : State) (pr : Fin 8) (lg adv : Nat) : State :=
  s.setPtr pr ((headOf s pr lg + adv) % 2 ^ lg)

/-! ### Check (R120) -/

/-- The NOT_INIT row of R119: the commands that use N. -/
def usesN : Instr → Bool
  | .nop => false
  | .setparam _ _ => false
  | .setp _ _ => false
  | .fill _ _ _ => false
  | .copy _ _ _ => false
  | .init _ => false
  | .fftFwd _ _ => true
  | .fftInv _ _ => true
  | .fftshift _ => true
  | .mag _ _ => true
  | .phase _ _ => true
  | .polar _ _ _ => true
  | .princarg _ _ _ => false
  | .phasediff _ _ _ _ => false
  | .pvUnwrap _ _ _ _ => true
  | .vmul _ _ _ _ => false
  | .zpad _ _ _ => true
  | .histPush _ _ _ _ _ => false
  | .histExtract _ _ _ _ _ => false
  | .olaAdd _ _ _ _ _ _ => false
  | .olaDrain _ _ _ _ _ => false
  | .olaDrainMix _ _ _ _ _ _ => false
  | .splitCarry _ _ _ _ => false
  | .cmul _ _ _ => true
  | .cmatApply _ _ _ => true
  | .cmatInv _ _ => true

/-- The condition of the circular commands in R120, table 2: LG > 16 or CNT > 2^LG. -/
def badCircular (lg cnt : Nat) : Bool := decide (16 < lg) || decide (2 ^ lg < cnt)

/-- R120, table 2: a used field holds an illegal value. `n` is N. -/
def badField (log2nMax n : Nat) : Instr → Bool
  | .nop => false
  | .setparam cnt _ => decide (2 < cnt)
  | .setp _ _ => false
  | .fill _ _ _ => false
  | .copy _ _ _ => false
  | .init cnt => decide (cnt < 1) || decide (log2nMax < cnt)
  | .fftFwd _ _ => false
  | .fftInv _ _ => false
  | .fftshift _ => false
  | .mag _ _ => false
  | .phase _ _ => false
  | .polar _ _ _ => false
  | .princarg _ _ _ => false
  | .phasediff _ _ _ _ => false
  | .pvUnwrap _ _ _ _ => false
  | .vmul _ _ _ _ => false
  | .zpad _ _ cnt => decide (n < cnt)
  | .histPush _ lg cnt _ _ => badCircular lg cnt
  | .histExtract _ lg cnt _ _ => badCircular lg cnt
  | .olaAdd _ lg cnt _ _ _ => badCircular lg cnt
  | .olaDrain _ lg cnt _ _ => badCircular lg cnt
  | .olaDrainMix _ lg cnt _ _ _ => badCircular lg cnt
  | .splitCarry _ _ _ _ => false
  | .cmul _ _ _ => false
  | .cmatApply _ _ _ => false
  | .cmatInv _ _ => false

/-- R120, table 3: the operand extents (word address, length in words). `n` is N. -/
def extents (n : Nat) : Instr → List (Nat × Nat)
  | .nop => []
  | .setparam _ _ => []
  | .setp _ _ => []
  | .fill a cnt _ => [(a, cnt)]
  | .copy a b cnt => [(a, cnt), (b, cnt)]
  | .init _ => []
  | .fftFwd a b => [(a, n), (b, 2 * n)]
  | .fftInv a b => [(a, 2 * n), (b, n)]
  | .fftshift a => [(a, n)]
  | .mag a b => [(a, 2 * n), (b, n)]
  | .phase a b => [(a, 2 * n), (b, n)]
  | .polar a b c => [(a, n), (b, n), (c, 2 * n)]
  | .princarg a b cnt => [(a, cnt), (b, cnt)]
  | .phasediff a b c cnt => [(a, cnt), (b, cnt), (c, cnt)]
  | .pvUnwrap a b c _ => [(a, n), (b, n), (c, n)]
  | .vmul a b c cnt => [(a, cnt), (b, cnt), (c, cnt)]
  | .zpad a b cnt => [(a, cnt), (b, n)]
  | .histPush _ lg cnt a b => [(a, cnt), (b, 2 ^ lg)]
  | .histExtract _ lg cnt b c => [(b, 2 ^ lg), (c, cnt)]
  | .olaAdd _ lg cnt a b _ => [(a, cnt), (b, 2 ^ lg)]
  | .olaDrain _ lg cnt b c => [(b, 2 ^ lg), (c, cnt)]
  | .olaDrainMix _ lg cnt a b c => [(a, cnt), (b, 2 ^ lg), (c, cnt)]
  | .splitCarry a b c cnt => [(a, 2 * cnt), (b, cnt), (c, cnt)]
  | .cmul a b c => [(a, 2 * n), (b, 2 * n), (c, 2 * n)]
  | .cmatApply a b c => [(a, 8 * n), (b, 4 * n), (c, 4 * n)]
  | .cmatInv a b => [(a, 8 * n), (b, 8 * n)]

/-- R135: the extents a command writes, each of the length of R120, table 3. `n` is N. -/
def writtenExtents (n : Nat) : Instr → List (Nat × Nat)
  | .nop => []
  | .setparam _ _ => []
  | .setp _ _ => []
  | .fill a cnt _ => [(a, cnt)]
  | .copy _ b cnt => [(b, cnt)]
  | .init _ => []
  | .fftFwd _ b => [(b, 2 * n)]
  | .fftInv _ b => [(b, n)]
  | .fftshift a => [(a, n)]
  | .mag _ b => [(b, n)]
  | .phase _ b => [(b, n)]
  | .polar _ _ c => [(c, 2 * n)]
  | .princarg _ b cnt => [(b, cnt)]
  | .phasediff _ _ c cnt => [(c, cnt)]
  | .pvUnwrap _ b c _ => [(b, n), (c, n)]
  | .vmul _ _ c cnt => [(c, cnt)]
  | .zpad _ b _ => [(b, n)]
  | .histPush _ lg _ _ b => [(b, 2 ^ lg)]
  | .histExtract _ _ cnt _ c => [(c, cnt)]
  | .olaAdd _ lg _ _ b _ => [(b, 2 ^ lg)]
  | .olaDrain _ lg cnt b c => [(b, 2 ^ lg), (c, cnt)]
  | .olaDrainMix _ lg cnt _ b c => [(b, 2 ^ lg), (c, cnt)]
  | .splitCarry _ b c cnt => [(b, cnt), (c, cnt)]
  | .cmul _ _ c => [(c, 2 * n)]
  | .cmatApply _ _ c => [(c, 4 * n)]
  | .cmatInv _ b => [(b, 8 * n)]

/-- R62: an extent is in range iff its length is 0 or it ends inside DMEM. -/
def inRange (words : Nat) (e : Nat × Nat) : Bool := decide (e.2 = 0) || decide (e.1 + e.2 ≤ words)

/-- Steps 3 to 5 of Check, for a command that decodes (R120). -/
def check (i : Instr) (s : State) : Cause :=
  if usesN i && !s.initDone then .notInit
  else if badField s.hw.log2nMax s.nPoints i then .fieldRange
  else if (extents s.nPoints i).all (inRange s.dmemWords) then .none
  else .addrRange

/-- The cause of an encoding that is illegal: steps 1 and 2 of Check (R80, R120). -/
def causeOf : Illegal → Cause
  | .illegalOpcode => .illegalOpcode
  | .reservedField => .reservedField

/-- Check(CMD), all five steps in order (R120). -/
def checkCmd (c : Cmd) (s : State) : Cause :=
  match decode c with
  | .illegal why => causeOf why
  | .ok i => check i s

/-- The complete step of the command `i`, whose effect is `effect` (R50): FaultEntry if Check finds a
cause, with no other effect (R121); else the effect, then retirement. -/
def complete (i : Instr) (effect : State → State) (s : State) : Out :=
  match check i s with
  | .none => .next (effect s).retire
  | cause => .next (s.faultEntry cause (encode i)).endCommand

end Sys2Proof.Machine
end

