-- ==== Sys2Proof/Machine/Control.lean ====
section
/-! DEFINITION. The control and data-movement commands (44_control.md R113 to R117): NOP, SETPARAM,
SETP, FILL, COPY. -/

namespace Sys2Proof.Machine

/-- NOP (R113): no effect of its own. -/
def execNop (s : State) : Out := complete .nop id s

/-- The pitch ratio SETPARAM 0 stores: NaN gives 1.0, else clamped to [0.5, 2.0] (R114). -/
def clampRatio (v : Word) : Word :=
  if isNaN v then fONE else if flt v fHALF then fHALF else if flt fTWO v then fTWO else v

/-- The mix SETPARAM 2 stores: NaN gives 1.0, else clamped to [0, 1] (R114). -/
def clampMix (v : Word) : Word :=
  if isNaN v then fONE else if flt v fZERO then fZERO else if flt fONE v then fONE else v

/-- RATIO and INVRATIO written (R114, R36, R37). -/
def setRatio (v : Word) (s : State) : State :=
  { s with ratio := clampRatio v, invRatio := fdiv fONE (clampRatio v) }

/-- BETA written, the bit pattern kept (R114, R38). -/
def setBeta (v : Word) (s : State) : State := { s with beta := v }

/-- MIX and OMMIX written (R114, R39, R40). -/
def setMix (v : Word) (s : State) : State :=
  { s with mix := clampMix v, omMix := fsub fONE (clampMix v) }

/-- The effect of SETPARAM (R114); Check has excluded ids above 2 (R120, table 2). -/
def setparamEffect (cnt : Nat) (imm : Word) (s : State) : State :=
  match cnt with
  | 0 => setRatio imm s
  | 1 => setBeta imm s
  | 2 => setMix imm s
  | _ => s

/-- SETPARAM (R114). -/
def execSetparam (cnt : Nat) (imm : Word) (s : State) : Out :=
  complete (.setparam cnt imm) (setparamEffect cnt imm) s

/-- SETP (R115): `P[PR] <- CNT`. -/
def execSetp (pr : Fin 8) (cnt : Nat) (s : State) : Out :=
  complete (.setp pr cnt) (fun s => s.setPtr pr cnt) s

/-- The words FILL writes (R116). -/
def fillMem (a cnt : Nat) (imm : Word) : Mem → Mem := loop cnt fun i m => setWord m (a + i) imm

/-- FILL (R116). -/
def execFill (a cnt : Nat) (imm : Word) (s : State) : Out :=
  complete (.fill a cnt imm) (fun s => s.setMem (fillMem a cnt imm s.mem)) s

/-- The words COPY moves, ascending (R117). -/
def copyMem (a b cnt : Nat) : Mem → Mem := loop cnt fun i m => setWord m (b + i) (memWord m (a + i))

/-- COPY (R117). -/
def execCopy (a b cnt : Nat) (s : State) : Out :=
  complete (.copy a b cnt) (fun s => s.setMem (copyMem a b cnt s.mem)) s

end Sys2Proof.Machine
end

