-- ==== Sys2Proof/Machine/Trig.lean ====
section
/-! DEFINITION. The parameter functions SIN32, COS32 and ATAN2_32 (00_scope.md R10): the special
operands R10 settles, and the instance's opaque unit on every other operand (log entry 8). -/

namespace Sys2Proof.Machine

/-- `SIN32` (R10). -/
def sin32 (x : Word) : Word :=
  if isNaN x || isInf x then canonNaN else if isZero x then x else Config.trig.sin x

/-- `COS32` (R10). -/
def cos32 (x : Word) : Word :=
  if isNaN x || isInf x then canonNaN else if isZero x then fONE else Config.trig.cos x

/-- A constant with the sign of `y`. -/
def withSignOf (y c : Word) : Word := if signBit y then fneg c else c

/-- `ATAN2_32(y, x)` (R10). With `y` a zero the result is that zero for `x` > 0 or `x` = +0, and
±PI_F32 for `x` < 0 or `x` = −0; with `x` a zero and `y` not, it is ±HALF_PI_F32. -/
def atan2F32 (y x : Word) : Word :=
  if isNaN y || isNaN x then canonNaN
  else if isZero y then (if signBit x then withSignOf y piF32 else y)
  else if isZero x then withSignOf y halfPiF32
  else Config.trig.atan2 y x

end Sys2Proof.Machine
end

