-- ==== Sys2Proof/Machine/Twiddle.lean ====
section
/-! DEFINITION. The twiddle ROM (R45, R84, R85): one quarter wave of correctly rounded cosines.

R84 defines entry j of the ROM as (f32(cos(2πj/NMAX)), f32(−sin(2πj/NMAX))), each the single
correct rounding of an exact real. The largest NMAX this spec allows is 8192 (R7), and R85 says
that a smaller instance holds the same values at a coarser step, so one quarter wave of step
2π/8192 serves every instance: the other quarters are its mirror images, exactly, because
rounding to nearest is symmetric in the sign. -/

namespace Sys2Proof.Machine

/-- R84: f32(cos(2πj/8192)) for j = 0 .. 63. -/
def quarterCos00 : List Nat := [
  0x3F800000, 0x3F7FFFFB, 0x3F7FFFEC, 0x3F7FFFD4, 0x3F7FFFB1, 0x3F7FFF85, 0x3F7FFF4E, 0x3F7FFF0E,
  0x3F7FFEC4, 0x3F7FFE70, 0x3F7FFE13, 0x3F7FFDAB, 0x3F7FFD39, 0x3F7FFCBE, 0x3F7FFC39, 0x3F7FFBAA,
  0x3F7FFB11, 0x3F7FFA6E, 0x3F7FF9C1, 0x3F7FF90B, 0x3F7FF84A, 0x3F7FF780, 0x3F7FF6AC, 0x3F7FF5CE,
  0x3F7FF4E6, 0x3F7FF3F4, 0x3F7FF2F8, 0x3F7FF1F3, 0x3F7FF0E3, 0x3F7FEFCA, 0x3F7FEEA7, 0x3F7FED7A,
  0x3F7FEC43, 0x3F7FEB02, 0x3F7FE9B8, 0x3F7FE863, 0x3F7FE705, 0x3F7FE59D, 0x3F7FE42B, 0x3F7FE2AF,
  0x3F7FE129, 0x3F7FDF99, 0x3F7FDE00, 0x3F7FDC5C, 0x3F7FDAAF, 0x3F7FD8F8, 0x3F7FD737, 0x3F7FD56C,
  0x3F7FD397, 0x3F7FD1B9, 0x3F7FCFD1, 0x3F7FCDDE, 0x3F7FCBE2, 0x3F7FC9DC, 0x3F7FC7CC, 0x3F7FC5B2,
  0x3F7FC38F, 0x3F7FC161, 0x3F7FBF2A, 0x3F7FBCE9, 0x3F7FBA9E, 0x3F7FB849, 0x3F7FB5EA, 0x3F7FB382]

/-- R84: f32(cos(2πj/8192)) for j = 64 .. 127. -/
def quarterCos01 : List Nat := [
  0x3F7FB10F, 0x3F7FAE93, 0x3F7FAC0D, 0x3F7FA97D, 0x3F7FA6E3, 0x3F7FA43F, 0x3F7FA191, 0x3F7F9EDA,
  0x3F7F9C18, 0x3F7F994D, 0x3F7F9678, 0x3F7F9399, 0x3F7F90B1, 0x3F7F8DBE, 0x3F7F8AC2, 0x3F7F87BB,
  0x3F7F84AB, 0x3F7F8191, 0x3F7F7E6D, 0x3F7F7B40, 0x3F7F7808, 0x3F7F74C7, 0x3F7F717B, 0x3F7F6E26,
  0x3F7F6AC7, 0x3F7F675F, 0x3F7F63EC, 0x3F7F606F, 0x3F7F5CE9, 0x3F7F5959, 0x3F7F55BF, 0x3F7F521B,
  0x3F7F4E6D, 0x3F7F4AB6, 0x3F7F46F4, 0x3F7F4329, 0x3F7F3F54, 0x3F7F3B75, 0x3F7F378C, 0x3F7F339A,
  0x3F7F2F9D, 0x3F7F2B97, 0x3F7F2787, 0x3F7F236D, 0x3F7F1F49, 0x3F7F1B1C, 0x3F7F16E4, 0x3F7F12A3,
  0x3F7F0E58, 0x3F7F0A03, 0x3F7F05A4, 0x3F7F013C, 0x3F7EFCC9, 0x3F7EF84D, 0x3F7EF3C7, 0x3F7EEF37,
  0x3F7EEA9D, 0x3F7EE5F9, 0x3F7EE14C, 0x3F7EDC95, 0x3F7ED7D4, 0x3F7ED309, 0x3F7ECE34, 0x3F7EC955]

/-- R84: f32(cos(2πj/8192)) for j = 128 .. 191. -/
def quarterCos02 : List Nat := [
  0x3F7EC46D, 0x3F7EBF7B, 0x3F7EBA7F, 0x3F7EB579, 0x3F7EB069, 0x3F7EAB50, 0x3F7EA62D, 0x3F7EA100,
  0x3F7E9BC9, 0x3F7E9688, 0x3F7E913D, 0x3F7E8BE9, 0x3F7E868B, 0x3F7E8123, 0x3F7E7BB1, 0x3F7E7635,
  0x3F7E70B0, 0x3F7E6B21, 0x3F7E6588, 0x3F7E5FE5, 0x3F7E5A38, 0x3F7E5482, 0x3F7E4EC1, 0x3F7E48F7,
  0x3F7E4323, 0x3F7E3D46, 0x3F7E375E, 0x3F7E316D, 0x3F7E2B72, 0x3F7E256D, 0x3F7E1F5E, 0x3F7E1946,
  0x3F7E1324, 0x3F7E0CF7, 0x3F7E06C2, 0x3F7E0082, 0x3F7DFA38, 0x3F7DF3E5, 0x3F7DED88, 0x3F7DE721,
  0x3F7DE0B1, 0x3F7DDA36, 0x3F7DD3B2, 0x3F7DCD24, 0x3F7DC68C, 0x3F7DBFEB, 0x3F7DB940, 0x3F7DB28A,
  0x3F7DABCC, 0x3F7DA503, 0x3F7D9E30, 0x3F7D9754, 0x3F7D906E, 0x3F7D897E, 0x3F7D8285, 0x3F7D7B82,
  0x3F7D7474, 0x3F7D6D5E, 0x3F7D663D, 0x3F7D5F13, 0x3F7D57DE, 0x3F7D50A0, 0x3F7D4959, 0x3F7D4207]

/-- R84: f32(cos(2πj/8192)) for j = 192 .. 255. -/
def quarterCos03 : List Nat := [
  0x3F7D3AAC, 0x3F7D3347, 0x3F7D2BD8, 0x3F7D2460, 0x3F7D1CDD, 0x3F7D1551, 0x3F7D0DBC, 0x3F7D061C,
  0x3F7CFE73, 0x3F7CF6C0, 0x3F7CEF03, 0x3F7CE73C, 0x3F7CDF6C, 0x3F7CD792, 0x3F7CCFAE, 0x3F7CC7C0,
  0x3F7CBFC9, 0x3F7CB7C8, 0x3F7CAFBD, 0x3F7CA7A9, 0x3F7C9F8A, 0x3F7C9762, 0x3F7C8F31, 0x3F7C86F5,
  0x3F7C7EB0, 0x3F7C7661, 0x3F7C6E08, 0x3F7C65A6, 0x3F7C5D3A, 0x3F7C54C4, 0x3F7C4C44, 0x3F7C43BB,
  0x3F7C3B28, 0x3F7C328B, 0x3F7C29E5, 0x3F7C2134, 0x3F7C187A, 0x3F7C0FB7, 0x3F7C06E9, 0x3F7BFE12,
  0x3F7BF531, 0x3F7BEC47, 0x3F7BE353, 0x3F7BDA55, 0x3F7BD14D, 0x3F7BC83B, 0x3F7BBF20, 0x3F7BB5FC,
  0x3F7BACCD, 0x3F7BA395, 0x3F7B9A53, 0x3F7B9107, 0x3F7B87B2, 0x3F7B7E53, 0x3F7B74EA, 0x3F7B6B78,
  0x3F7B61FC, 0x3F7B5876, 0x3F7B4EE7, 0x3F7B454E, 0x3F7B3BAB, 0x3F7B31FE, 0x3F7B2848, 0x3F7B1E88]

/-- R84: f32(cos(2πj/8192)) for j = 256 .. 319. -/
def quarterCos04 : List Nat := [
  0x3F7B14BE, 0x3F7B0AEB, 0x3F7B010E, 0x3F7AF728, 0x3F7AED37, 0x3F7AE33D, 0x3F7AD93A, 0x3F7ACF2D,
  0x3F7AC516, 0x3F7ABAF5, 0x3F7AB0CB, 0x3F7AA697, 0x3F7A9C59, 0x3F7A9212, 0x3F7A87C1, 0x3F7A7D66,
  0x3F7A7302, 0x3F7A6894, 0x3F7A5E1C, 0x3F7A539B, 0x3F7A4910, 0x3F7A3E7C, 0x3F7A33DD, 0x3F7A2936,
  0x3F7A1E84, 0x3F7A13C9, 0x3F7A0904, 0x3F79FE36, 0x3F79F35E, 0x3F79E87C, 0x3F79DD91, 0x3F79D29C,
  0x3F79C79D, 0x3F79BC95, 0x3F79B183, 0x3F79A668, 0x3F799B43, 0x3F799014, 0x3F7984DC, 0x3F79799A,
  0x3F796E4E, 0x3F7962F9, 0x3F79579A, 0x3F794C32, 0x3F7940C0, 0x3F793544, 0x3F7929BF, 0x3F791E30,
  0x3F791298, 0x3F7906F6, 0x3F78FB4A, 0x3F78EF95, 0x3F78E3D6, 0x3F78D80E, 0x3F78CC3B, 0x3F78C060,
  0x3F78B47B, 0x3F78A88C, 0x3F789C93, 0x3F789091, 0x3F788486, 0x3F787871, 0x3F786C52, 0x3F78602A]

/-- R84: f32(cos(2πj/8192)) for j = 320 .. 383. -/
def quarterCos05 : List Nat := [
  0x3F7853F8, 0x3F7847BC, 0x3F783B77, 0x3F782F29, 0x3F7822D1, 0x3F78166F, 0x3F780A04, 0x3F77FD8F,
  0x3F77F110, 0x3F77E488, 0x3F77D7F7, 0x3F77CB5C, 0x3F77BEB7, 0x3F77B209, 0x3F77A551, 0x3F779890,
  0x3F778BC5, 0x3F777EF1, 0x3F777213, 0x3F77652B, 0x3F77583A, 0x3F774B40, 0x3F773E3C, 0x3F77312E,
  0x3F772417, 0x3F7716F6, 0x3F7709CC, 0x3F76FC99, 0x3F76EF5B, 0x3F76E215, 0x3F76D4C4, 0x3F76C76B,
  0x3F76BA07, 0x3F76AC9A, 0x3F769F24, 0x3F7691A4, 0x3F76841B, 0x3F767688, 0x3F7668EC, 0x3F765B46,
  0x3F764D97, 0x3F763FDE, 0x3F76321B, 0x3F762450, 0x3F76167A, 0x3F76089C, 0x3F75FAB3, 0x3F75ECC2,
  0x3F75DEC6, 0x3F75D0C2, 0x3F75C2B3, 0x3F75B49C, 0x3F75A67B, 0x3F759850, 0x3F758A1C, 0x3F757BDE,
  0x3F756D97, 0x3F755F47, 0x3F7550ED, 0x3F754289, 0x3F75341D, 0x3F7525A6, 0x3F751727, 0x3F75089D]

/-- R84: f32(cos(2πj/8192)) for j = 384 .. 447. -/
def quarterCos06 : List Nat := [
  0x3F74FA0B, 0x3F74EB6F, 0x3F74DCC9, 0x3F74CE1A, 0x3F74BF62, 0x3F74B0A0, 0x3F74A1D5, 0x3F749300,
  0x3F748422, 0x3F74753A, 0x3F746649, 0x3F74574F, 0x3F74484B, 0x3F74393E, 0x3F742A27, 0x3F741B07,
  0x3F740BDD, 0x3F73FCAA, 0x3F73ED6E, 0x3F73DE28, 0x3F73CED9, 0x3F73BF81, 0x3F73B01F, 0x3F73A0B4,
  0x3F73913F, 0x3F7381C1, 0x3F737239, 0x3F7362A8, 0x3F73530E, 0x3F73436B, 0x3F7333BE, 0x3F732407,
  0x3F731447, 0x3F73047E, 0x3F72F4AC, 0x3F72E4D0, 0x3F72D4EB, 0x3F72C4FC, 0x3F72B504, 0x3F72A503,
  0x3F7294F8, 0x3F7284E4, 0x3F7274C7, 0x3F7264A0, 0x3F725470, 0x3F724437, 0x3F7233F4, 0x3F7223A8,
  0x3F721352, 0x3F7202F4, 0x3F71F28C, 0x3F71E21A, 0x3F71D19F, 0x3F71C11B, 0x3F71B08E, 0x3F719FF7,
  0x3F718F57, 0x3F717EAE, 0x3F716DFB, 0x3F715D3F, 0x3F714C7A, 0x3F713BAC, 0x3F712AD4, 0x3F7119F3]

/-- R84: f32(cos(2πj/8192)) for j = 448 .. 511. -/
def quarterCos07 : List Nat := [
  0x3F710908, 0x3F70F814, 0x3F70E717, 0x3F70D611, 0x3F70C501, 0x3F70B3E9, 0x3F70A2C6, 0x3F70919B,
  0x3F708066, 0x3F706F28, 0x3F705DE1, 0x3F704C91, 0x3F703B37, 0x3F7029D4, 0x3F701867, 0x3F7006F2,
  0x3F6FF573, 0x3F6FE3EB, 0x3F6FD25A, 0x3F6FC0BF, 0x3F6FAF1B, 0x3F6F9D6E, 0x3F6F8BB8, 0x3F6F79F8,
  0x3F6F6830, 0x3F6F565E, 0x3F6F4483, 0x3F6F329E, 0x3F6F20B0, 0x3F6F0EBA, 0x3F6EFCBA, 0x3F6EEAB0,
  0x3F6ED89E, 0x3F6EC682, 0x3F6EB45D, 0x3F6EA22F, 0x3F6E8FF8, 0x3F6E7DB7, 0x3F6E6B6D, 0x3F6E591A,
  0x3F6E46BE, 0x3F6E3459, 0x3F6E21EB, 0x3F6E0F73, 0x3F6DFCF2, 0x3F6DEA68, 0x3F6DD7D5, 0x3F6DC539,
  0x3F6DB293, 0x3F6D9FE4, 0x3F6D8D2D, 0x3F6D7A6C, 0x3F6D67A1, 0x3F6D54CE, 0x3F6D41F2, 0x3F6D2F0C,
  0x3F6D1C1D, 0x3F6D0925, 0x3F6CF624, 0x3F6CE31A, 0x3F6CD007, 0x3F6CBCEA, 0x3F6CA9C5, 0x3F6C9696]

/-- R84: f32(cos(2πj/8192)) for j = 512 .. 575. -/
def quarterCos08 : List Nat := [
  0x3F6C835E, 0x3F6C701E, 0x3F6C5CD4, 0x3F6C4980, 0x3F6C3624, 0x3F6C22BF, 0x3F6C0F50, 0x3F6BFBD9,
  0x3F6BE858, 0x3F6BD4CE, 0x3F6BC13B, 0x3F6BADA0, 0x3F6B99FB, 0x3F6B864C, 0x3F6B7295, 0x3F6B5ED5,
  0x3F6B4B0C, 0x3F6B3739, 0x3F6B235E, 0x3F6B0F79, 0x3F6AFB8C, 0x3F6AE795, 0x3F6AD395, 0x3F6ABF8C,
  0x3F6AAB7B, 0x3F6A9760, 0x3F6A833C, 0x3F6A6F0F, 0x3F6A5AD9, 0x3F6A469A, 0x3F6A3252, 0x3F6A1E01,
  0x3F6A09A7, 0x3F69F543, 0x3F69E0D7, 0x3F69CC62, 0x3F69B7E4, 0x3F69A35D, 0x3F698ECC, 0x3F697A33,
  0x3F696591, 0x3F6950E6, 0x3F693C32, 0x3F692774, 0x3F6912AE, 0x3F68FDDF, 0x3F68E907, 0x3F68D426,
  0x3F68BF3C, 0x3F68AA49, 0x3F68954C, 0x3F688047, 0x3F686B39, 0x3F685623, 0x3F684103, 0x3F682BDA,
  0x3F6816A8, 0x3F68016D, 0x3F67EC29, 0x3F67D6DD, 0x3F67C187, 0x3F67AC29, 0x3F6796C1, 0x3F678151]

/-- R84: f32(cos(2πj/8192)) for j = 576 .. 639. -/
def quarterCos09 : List Nat := [
  0x3F676BD8, 0x3F675655, 0x3F6740CA, 0x3F672B36, 0x3F671599, 0x3F66FFF3, 0x3F66EA45, 0x3F66D48D,
  0x3F66BECC, 0x3F66A903, 0x3F669330, 0x3F667D55, 0x3F666771, 0x3F665184, 0x3F663B8E, 0x3F66258F,
  0x3F660F88, 0x3F65F977, 0x3F65E35E, 0x3F65CD3B, 0x3F65B710, 0x3F65A0DC, 0x3F658AA0, 0x3F65745A,
  0x3F655E0B, 0x3F6547B4, 0x3F653154, 0x3F651AEB, 0x3F650479, 0x3F64EDFE, 0x3F64D77B, 0x3F64C0EE,
  0x3F64AA59, 0x3F6493BB, 0x3F647D14, 0x3F646665, 0x3F644FAC, 0x3F6438EB, 0x3F642221, 0x3F640B4E,
  0x3F63F473, 0x3F63DD8E, 0x3F63C6A1, 0x3F63AFAB, 0x3F6398AC, 0x3F6381A5, 0x3F636A95, 0x3F63537B,
  0x3F633C5A, 0x3F63252F, 0x3F630DFC, 0x3F62F6C0, 0x3F62DF7B, 0x3F62C82D, 0x3F62B0D7, 0x3F629978,
  0x3F628210, 0x3F626AA0, 0x3F625326, 0x3F623BA4, 0x3F62241A, 0x3F620C86, 0x3F61F4EA, 0x3F61DD45]

/-- R84: f32(cos(2πj/8192)) for j = 640 .. 703. -/
def quarterCos10 : List Nat := [
  0x3F61C598, 0x3F61ADE1, 0x3F619622, 0x3F617E5B, 0x3F61668A, 0x3F614EB1, 0x3F6136D0, 0x3F611EE5,
  0x3F6106F2, 0x3F60EEF6, 0x3F60D6F2, 0x3F60BEE5, 0x3F60A6CF, 0x3F608EB0, 0x3F607689, 0x3F605E5A,
  0x3F604621, 0x3F602DE0, 0x3F601596, 0x3F5FFD44, 0x3F5FE4E9, 0x3F5FCC86, 0x3F5FB419, 0x3F5F9BA5,
  0x3F5F8327, 0x3F5F6AA1, 0x3F5F5212, 0x3F5F397B, 0x3F5F20DB, 0x3F5F0833, 0x3F5EEF81, 0x3F5ED6C8,
  0x3F5EBE05, 0x3F5EA53A, 0x3F5E8C67, 0x3F5E738B, 0x3F5E5AA6, 0x3F5E41B9, 0x3F5E28C3, 0x3F5E0FC5,
  0x3F5DF6BE, 0x3F5DDDAF, 0x3F5DC497, 0x3F5DAB76, 0x3F5D924D, 0x3F5D791B, 0x3F5D5FE1, 0x3F5D469E,
  0x3F5D2D53, 0x3F5D13FF, 0x3F5CFAA3, 0x3F5CE13E, 0x3F5CC7D1, 0x3F5CAE5B, 0x3F5C94DD, 0x3F5C7B56,
  0x3F5C61C7, 0x3F5C482F, 0x3F5C2E8E, 0x3F5C14E6, 0x3F5BFB34, 0x3F5BE17A, 0x3F5BC7B8, 0x3F5BADED]

/-- R84: f32(cos(2πj/8192)) for j = 704 .. 767. -/
def quarterCos11 : List Nat := [
  0x3F5B941A, 0x3F5B7A3E, 0x3F5B605A, 0x3F5B466E, 0x3F5B2C79, 0x3F5B127B, 0x3F5AF875, 0x3F5ADE67,
  0x3F5AC450, 0x3F5AAA31, 0x3F5A9009, 0x3F5A75D9, 0x3F5A5BA0, 0x3F5A415F, 0x3F5A2716, 0x3F5A0CC4,
  0x3F59F26A, 0x3F59D807, 0x3F59BD9C, 0x3F59A329, 0x3F5988AD, 0x3F596E29, 0x3F59539C, 0x3F593908,
  0x3F591E6A, 0x3F5903C5, 0x3F58E916, 0x3F58CE60, 0x3F58B3A1, 0x3F5898DA, 0x3F587E0B, 0x3F586333,
  0x3F584853, 0x3F582D6A, 0x3F581279, 0x3F57F780, 0x3F57DC7F, 0x3F57C175, 0x3F57A663, 0x3F578B48,
  0x3F577026, 0x3F5754FB, 0x3F5739C7, 0x3F571E8C, 0x3F570348, 0x3F56E7FB, 0x3F56CCA7, 0x3F56B14A,
  0x3F5695E5, 0x3F567A78, 0x3F565F02, 0x3F564384, 0x3F5627FE, 0x3F560C70, 0x3F55F0D9, 0x3F55D53A,
  0x3F55B993, 0x3F559DE3, 0x3F55822C, 0x3F55666C, 0x3F554AA4, 0x3F552ED4, 0x3F5512FB, 0x3F54F71A]

/-- R84: f32(cos(2πj/8192)) for j = 768 .. 831. -/
def quarterCos12 : List Nat := [
  0x3F54DB31, 0x3F54BF40, 0x3F54A347, 0x3F548745, 0x3F546B3B, 0x3F544F2A, 0x3F54330F, 0x3F5416ED,
  0x3F53FAC3, 0x3F53DE90, 0x3F53C255, 0x3F53A612, 0x3F5389C7, 0x3F536D74, 0x3F535118, 0x3F5334B5,
  0x3F531849, 0x3F52FBD5, 0x3F52DF59, 0x3F52C2D5, 0x3F52A649, 0x3F5289B4, 0x3F526D18, 0x3F525073,
  0x3F5233C6, 0x3F521711, 0x3F51FA54, 0x3F51DD8F, 0x3F51C0C2, 0x3F51A3ED, 0x3F518710, 0x3F516A2A,
  0x3F514D3D, 0x3F513047, 0x3F51134A, 0x3F50F644, 0x3F50D937, 0x3F50BC21, 0x3F509F03, 0x3F5081DD,
  0x3F5064AF, 0x3F504779, 0x3F502A3B, 0x3F500CF6, 0x3F4FEFA8, 0x3F4FD252, 0x3F4FB4F4, 0x3F4F978D,
  0x3F4F7A1F, 0x3F4F5CA9, 0x3F4F3F2B, 0x3F4F21A5, 0x3F4F0417, 0x3F4EE681, 0x3F4EC8E4, 0x3F4EAB3E,
  0x3F4E8D90, 0x3F4E6FDA, 0x3F4E521C, 0x3F4E3456, 0x3F4E1689, 0x3F4DF8B3, 0x3F4DDAD5, 0x3F4DBCF0]

/-- R84: f32(cos(2πj/8192)) for j = 832 .. 895. -/
def quarterCos13 : List Nat := [
  0x3F4D9F02, 0x3F4D810D, 0x3F4D6310, 0x3F4D450A, 0x3F4D26FD, 0x3F4D08E8, 0x3F4CEACB, 0x3F4CCCA6,
  0x3F4CAE79, 0x3F4C9045, 0x3F4C7208, 0x3F4C53C4, 0x3F4C3578, 0x3F4C1723, 0x3F4BF8C7, 0x3F4BDA63,
  0x3F4BBBF8, 0x3F4B9D84, 0x3F4B7F09, 0x3F4B6085, 0x3F4B41FA, 0x3F4B2367, 0x3F4B04CC, 0x3F4AE62A,
  0x3F4AC77F, 0x3F4AA8CD, 0x3F4A8A13, 0x3F4A6B51, 0x3F4A4C87, 0x3F4A2DB6, 0x3F4A0EDC, 0x3F49EFFB,
  0x3F49D112, 0x3F49B222, 0x3F499329, 0x3F497429, 0x3F495521, 0x3F493611, 0x3F4916FA, 0x3F48F7DA,
  0x3F48D8B3, 0x3F48B985, 0x3F489A4E, 0x3F487B10, 0x3F485BCA, 0x3F483C7C, 0x3F481D27, 0x3F47FDCA,
  0x3F47DE65, 0x3F47BEF9, 0x3F479F84, 0x3F478008, 0x3F476085, 0x3F4740FA, 0x3F472167, 0x3F4701CC,
  0x3F46E22A, 0x3F46C280, 0x3F46A2CE, 0x3F468315, 0x3F466354, 0x3F46438B, 0x3F4623BB, 0x3F4603E3]

/-- R84: f32(cos(2πj/8192)) for j = 896 .. 959. -/
def quarterCos14 : List Nat := [
  0x3F45E403, 0x3F45C41C, 0x3F45A42D, 0x3F458437, 0x3F456439, 0x3F454433, 0x3F452426, 0x3F450411,
  0x3F44E3F5, 0x3F44C3D1, 0x3F44A3A5, 0x3F448372, 0x3F446337, 0x3F4442F5, 0x3F4422AB, 0x3F44025A,
  0x3F43E200, 0x3F43C1A0, 0x3F43A138, 0x3F4380C8, 0x3F436051, 0x3F433FD2, 0x3F431F4C, 0x3F42FEBE,
  0x3F42DE29, 0x3F42BD8C, 0x3F429CE8, 0x3F427C3C, 0x3F425B89, 0x3F423ACE, 0x3F421A0B, 0x3F41F942,
  0x3F41D870, 0x3F41B798, 0x3F4196B7, 0x3F4175D0, 0x3F4154E1, 0x3F4133EA, 0x3F4112EC, 0x3F40F1E7,
  0x3F40D0DA, 0x3F40AFC5, 0x3F408EA9, 0x3F406D86, 0x3F404C5C, 0x3F402B2A, 0x3F4009F0, 0x3F3FE8AF,
  0x3F3FC767, 0x3F3FA617, 0x3F3F84C0, 0x3F3F6362, 0x3F3F41FC, 0x3F3F208F, 0x3F3EFF1B, 0x3F3EDD9F,
  0x3F3EBC1B, 0x3F3E9A91, 0x3F3E78FF, 0x3F3E5766, 0x3F3E35C5, 0x3F3E141D, 0x3F3DF26E, 0x3F3DD0B7]

/-- R84: f32(cos(2πj/8192)) for j = 960 .. 1023. -/
def quarterCos15 : List Nat := [
  0x3F3DAEF9, 0x3F3D8D34, 0x3F3D6B67, 0x3F3D4993, 0x3F3D27B8, 0x3F3D05D6, 0x3F3CE3EC, 0x3F3CC1FB,
  0x3F3CA003, 0x3F3C7E03, 0x3F3C5BFC, 0x3F3C39EE, 0x3F3C17D9, 0x3F3BF5BC, 0x3F3BD398, 0x3F3BB16D,
  0x3F3B8F3B, 0x3F3B6D01, 0x3F3B4AC1, 0x3F3B2879, 0x3F3B0629, 0x3F3AE3D3, 0x3F3AC175, 0x3F3A9F10,
  0x3F3A7CA4, 0x3F3A5A31, 0x3F3A37B7, 0x3F3A1535, 0x3F39F2AC, 0x3F39D01D, 0x3F39AD85, 0x3F398AE7,
  0x3F396842, 0x3F394595, 0x3F3922E1, 0x3F390027, 0x3F38DD65, 0x3F38BA9C, 0x3F3897CB, 0x3F3874F4,
  0x3F385216, 0x3F382F30, 0x3F380C43, 0x3F37E950, 0x3F37C655, 0x3F37A353, 0x3F37804A, 0x3F375D3A,
  0x3F373A23, 0x3F371704, 0x3F36F3DF, 0x3F36D0B3, 0x3F36AD7F, 0x3F368A45, 0x3F366704, 0x3F3643BB,
  0x3F36206C, 0x3F35FD15, 0x3F35D9B8, 0x3F35B653, 0x3F3592E7, 0x3F356F75, 0x3F354BFB, 0x3F35287B]

/-- R84: f32(cos(2πj/8192)) for j = 1024 .. 1087. -/
def quarterCos16 : List Nat := [
  0x3F3504F3, 0x3F34E165, 0x3F34BDCF, 0x3F349A33, 0x3F34768F, 0x3F3452E5, 0x3F342F34, 0x3F340B7B,
  0x3F33E7BC, 0x3F33C3F6, 0x3F33A029, 0x3F337C55, 0x3F33587A, 0x3F333498, 0x3F3310AF, 0x3F32ECC0,
  0x3F32C8C9, 0x3F32A4CC, 0x3F3280C7, 0x3F325CBC, 0x3F3238AA, 0x3F321491, 0x3F31F071, 0x3F31CC4B,
  0x3F31A81D, 0x3F3183E9, 0x3F315FAD, 0x3F313B6B, 0x3F311722, 0x3F30F2D3, 0x3F30CE7C, 0x3F30AA1F,
  0x3F3085BB, 0x3F306150, 0x3F303CDE, 0x3F301865, 0x3F2FF3E6, 0x3F2FCF60, 0x3F2FAAD3, 0x3F2F863F,
  0x3F2F61A5, 0x3F2F3D03, 0x3F2F185B, 0x3F2EF3AD, 0x3F2ECEF7, 0x3F2EAA3B, 0x3F2E8578, 0x3F2E60AE,
  0x3F2E3BDE, 0x3F2E1707, 0x3F2DF229, 0x3F2DCD44, 0x3F2DA859, 0x3F2D8367, 0x3F2D5E6F, 0x3F2D396F,
  0x3F2D1469, 0x3F2CEF5D, 0x3F2CCA49, 0x3F2CA52F, 0x3F2C800F, 0x3F2C5AE7, 0x3F2C35B9, 0x3F2C1085]

/-- R84: f32(cos(2πj/8192)) for j = 1088 .. 1151. -/
def quarterCos17 : List Nat := [
  0x3F2BEB4A, 0x3F2BC608, 0x3F2BA0BF, 0x3F2B7B70, 0x3F2B561B, 0x3F2B30BE, 0x3F2B0B5B, 0x3F2AE5F2,
  0x3F2AC082, 0x3F2A9B0B, 0x3F2A758E, 0x3F2A500A, 0x3F2A2A80, 0x3F2A04EF, 0x3F29DF57, 0x3F29B9B9,
  0x3F299415, 0x3F296E69, 0x3F2948B8, 0x3F292300, 0x3F28FD41, 0x3F28D77C, 0x3F28B1B0, 0x3F288BDE,
  0x3F286605, 0x3F284026, 0x3F281A40, 0x3F27F454, 0x3F27CE61, 0x3F27A868, 0x3F278268, 0x3F275C62,
  0x3F273656, 0x3F271043, 0x3F26EA2A, 0x3F26C40A, 0x3F269DE3, 0x3F2677B7, 0x3F265184, 0x3F262B4A,
  0x3F26050A, 0x3F25DEC4, 0x3F25B877, 0x3F259224, 0x3F256BCB, 0x3F25456B, 0x3F251F04, 0x3F24F898,
  0x3F24D225, 0x3F24ABAC, 0x3F24852C, 0x3F245EA6, 0x3F24381A, 0x3F241187, 0x3F23EAEE, 0x3F23C44F,
  0x3F239DA9, 0x3F2376FD, 0x3F23504B, 0x3F232992, 0x3F2302D3, 0x3F22DC0E, 0x3F22B543, 0x3F228E71]

/-- R84: f32(cos(2πj/8192)) for j = 1152 .. 1215. -/
def quarterCos18 : List Nat := [
  0x3F226799, 0x3F2240BB, 0x3F2219D7, 0x3F21F2EC, 0x3F21CBFB, 0x3F21A504, 0x3F217E06, 0x3F215703,
  0x3F212FF9, 0x3F2108E9, 0x3F20E1D2, 0x3F20BAB6, 0x3F209393, 0x3F206C6A, 0x3F20453B, 0x3F201E06,
  0x3F1FF6CB, 0x3F1FCF89, 0x3F1FA841, 0x3F1F80F3, 0x3F1F599F, 0x3F1F3245, 0x3F1F0AE5, 0x3F1EE37E,
  0x3F1EBC12, 0x3F1E949F, 0x3F1E6D26, 0x3F1E45A7, 0x3F1E1E22, 0x3F1DF697, 0x3F1DCF06, 0x3F1DA76F,
  0x3F1D7FD1, 0x3F1D582E, 0x3F1D3084, 0x3F1D08D5, 0x3F1CE11F, 0x3F1CB963, 0x3F1C91A2, 0x3F1C69DA,
  0x3F1C420C, 0x3F1C1A38, 0x3F1BF25F, 0x3F1BCA7F, 0x3F1BA299, 0x3F1B7AAD, 0x3F1B52BB, 0x3F1B2AC3,
  0x3F1B02C6, 0x3F1ADAC2, 0x3F1AB2B8, 0x3F1A8AA8, 0x3F1A6293, 0x3F1A3A77, 0x3F1A1255, 0x3F19EA2E,
  0x3F19C200, 0x3F1999CD, 0x3F197194, 0x3F194955, 0x3F19210F, 0x3F18F8C4, 0x3F18D073, 0x3F18A81D]

/-- R84: f32(cos(2πj/8192)) for j = 1216 .. 1279. -/
def quarterCos19 : List Nat := [
  0x3F187FC0, 0x3F18575D, 0x3F182EF5, 0x3F180687, 0x3F17DE12, 0x3F17B598, 0x3F178D18, 0x3F176493,
  0x3F173C07, 0x3F171376, 0x3F16EADE, 0x3F16C241, 0x3F16999F, 0x3F1670F6, 0x3F164847, 0x3F161F93,
  0x3F15F6D9, 0x3F15CE19, 0x3F15A554, 0x3F157C88, 0x3F1553B7, 0x3F152AE0, 0x3F150204, 0x3F14D921,
  0x3F14B039, 0x3F14874B, 0x3F145E58, 0x3F14355E, 0x3F140C5F, 0x3F13E35B, 0x3F13BA50, 0x3F139140,
  0x3F13682A, 0x3F133F0F, 0x3F1315EE, 0x3F12ECC7, 0x3F12C39A, 0x3F129A68, 0x3F127130, 0x3F1247F3,
  0x3F121EB0, 0x3F11F567, 0x3F11CC19, 0x3F11A2C5, 0x3F11796B, 0x3F11500C, 0x3F1126A7, 0x3F10FD3D,
  0x3F10D3CD, 0x3F10AA57, 0x3F1080DC, 0x3F10575B, 0x3F102DD5, 0x3F100449, 0x3F0FDAB8, 0x3F0FB121,
  0x3F0F8784, 0x3F0F5DE2, 0x3F0F343B, 0x3F0F0A8E, 0x3F0EE0DB, 0x3F0EB723, 0x3F0E8D65, 0x3F0E63A2]

/-- R84: f32(cos(2πj/8192)) for j = 1280 .. 1343. -/
def quarterCos20 : List Nat := [
  0x3F0E39DA, 0x3F0E100C, 0x3F0DE638, 0x3F0DBC5F, 0x3F0D9281, 0x3F0D689D, 0x3F0D3EB3, 0x3F0D14C5,
  0x3F0CEAD0, 0x3F0CC0D7, 0x3F0C96D7, 0x3F0C6CD3, 0x3F0C42C9, 0x3F0C18BA, 0x3F0BEEA5, 0x3F0BC48B,
  0x3F0B9A6B, 0x3F0B7046, 0x3F0B461C, 0x3F0B1BEC, 0x3F0AF1B7, 0x3F0AC77D, 0x3F0A9D3D, 0x3F0A72F8,
  0x3F0A48AD, 0x3F0A1E5E, 0x3F09F409, 0x3F09C9AE, 0x3F099F4E, 0x3F0974E9, 0x3F094A7F, 0x3F092010,
  0x3F08F59B, 0x3F08CB20, 0x3F08A0A1, 0x3F08761C, 0x3F084B92, 0x3F082103, 0x3F07F66F, 0x3F07CBD5,
  0x3F07A136, 0x3F077692, 0x3F074BE8, 0x3F07213A, 0x3F06F686, 0x3F06CBCD, 0x3F06A10E, 0x3F06764B,
  0x3F064B82, 0x3F0620B5, 0x3F05F5E2, 0x3F05CB0A, 0x3F05A02C, 0x3F05754A, 0x3F054A62, 0x3F051F75,
  0x3F04F484, 0x3F04C98D, 0x3F049E91, 0x3F04738F, 0x3F044889, 0x3F041D7E, 0x3F03F26D, 0x3F03C757]

/-- R84: f32(cos(2πj/8192)) for j = 1344 .. 1407. -/
def quarterCos21 : List Nat := [
  0x3F039C3D, 0x3F03711D, 0x3F0345F8, 0x3F031ACE, 0x3F02EF9F, 0x3F02C46B, 0x3F029932, 0x3F026DF4,
  0x3F0242B1, 0x3F021769, 0x3F01EC1C, 0x3F01C0CA, 0x3F019573, 0x3F016A17, 0x3F013EB5, 0x3F01134F,
  0x3F00E7E4, 0x3F00BC74, 0x3F0090FF, 0x3F006585, 0x3F003A06, 0x3F000E82, 0x3EFFC5F3, 0x3EFF6ED8,
  0x3EFF17B2, 0x3EFEC083, 0x3EFE694A, 0x3EFE1207, 0x3EFDBABB, 0x3EFD6365, 0x3EFD0C04, 0x3EFCB49B,
  0x3EFC5D27, 0x3EFC05AA, 0x3EFBAE22, 0x3EFB5692, 0x3EFAFEF7, 0x3EFAA753, 0x3EFA4FA5, 0x3EF9F7EE,
  0x3EF9A02D, 0x3EF94862, 0x3EF8F08E, 0x3EF898B0, 0x3EF840C8, 0x3EF7E8D7, 0x3EF790DC, 0x3EF738D8,
  0x3EF6E0CB, 0x3EF688B3, 0x3EF63093, 0x3EF5D868, 0x3EF58035, 0x3EF527F8, 0x3EF4CFB1, 0x3EF47761,
  0x3EF41F07, 0x3EF3C6A4, 0x3EF36E38, 0x3EF315C2, 0x3EF2BD43, 0x3EF264BB, 0x3EF20C29, 0x3EF1B38E]

/-- R84: f32(cos(2πj/8192)) for j = 1408 .. 1471. -/
def quarterCos22 : List Nat := [
  0x3EF15AEA, 0x3EF1023C, 0x3EF0A985, 0x3EF050C5, 0x3EEFF7FB, 0x3EEF9F28, 0x3EEF464C, 0x3EEEED67,
  0x3EEE9479, 0x3EEE3B81, 0x3EEDE280, 0x3EED8976, 0x3EED3063, 0x3EECD747, 0x3EEC7E21, 0x3EEC24F3,
  0x3EEBCBBB, 0x3EEB727A, 0x3EEB1930, 0x3EEABFDD, 0x3EEA6681, 0x3EEA0D1C, 0x3EE9B3AE, 0x3EE95A37,
  0x3EE900B7, 0x3EE8A72E, 0x3EE84D9C, 0x3EE7F401, 0x3EE79A5D, 0x3EE740B1, 0x3EE6E6FB, 0x3EE68D3C,
  0x3EE63375, 0x3EE5D9A4, 0x3EE57FCB, 0x3EE525E9, 0x3EE4CBFE, 0x3EE4720A, 0x3EE4180E, 0x3EE3BE08,
  0x3EE363FA, 0x3EE309E3, 0x3EE2AFC4, 0x3EE2559B, 0x3EE1FB6A, 0x3EE1A130, 0x3EE146EE, 0x3EE0ECA3,
  0x3EE0924F, 0x3EE037F2, 0x3EDFDD8D, 0x3EDF831F, 0x3EDF28A9, 0x3EDECE2A, 0x3EDE73A2, 0x3EDE1912,
  0x3EDDBE79, 0x3EDD63D8, 0x3EDD092E, 0x3EDCAE7C, 0x3EDC53C1, 0x3EDBF8FD, 0x3EDB9E31, 0x3EDB435D]

/-- R84: f32(cos(2πj/8192)) for j = 1472 .. 1535. -/
def quarterCos23 : List Nat := [
  0x3EDAE880, 0x3EDA8D9B, 0x3EDA32AD, 0x3ED9D7B7, 0x3ED97CB9, 0x3ED921B2, 0x3ED8C6A3, 0x3ED86B8B,
  0x3ED8106B, 0x3ED7B543, 0x3ED75A13, 0x3ED6FEDA, 0x3ED6A399, 0x3ED6484F, 0x3ED5ECFD, 0x3ED591A4,
  0x3ED53641, 0x3ED4DAD7, 0x3ED47F64, 0x3ED423EA, 0x3ED3C867, 0x3ED36CDB, 0x3ED31148, 0x3ED2B5AD,
  0x3ED25A09, 0x3ED1FE5E, 0x3ED1A2AA, 0x3ED146EE, 0x3ED0EB2A, 0x3ED08F5E, 0x3ED0338A, 0x3ECFD7AE,
  0x3ECF7BCA, 0x3ECF1FDE, 0x3ECEC3EA, 0x3ECE67EE, 0x3ECE0BEA, 0x3ECDAFDE, 0x3ECD53CA, 0x3ECCF7AF,
  0x3ECC9B8B, 0x3ECC3F60, 0x3ECBE32C, 0x3ECB86F1, 0x3ECB2AAE, 0x3ECACE63, 0x3ECA7210, 0x3ECA15B5,
  0x3EC9B953, 0x3EC95CE9, 0x3EC90077, 0x3EC8A3FD, 0x3EC8477C, 0x3EC7EAF3, 0x3EC78E62, 0x3EC731CA,
  0x3EC6D529, 0x3EC67882, 0x3EC61BD2, 0x3EC5BF1B, 0x3EC5625C, 0x3EC50596, 0x3EC4A8C8, 0x3EC44BF2]

/-- R84: f32(cos(2πj/8192)) for j = 1536 .. 1599. -/
def quarterCos24 : List Nat := [
  0x3EC3EF15, 0x3EC39231, 0x3EC33544, 0x3EC2D851, 0x3EC27B55, 0x3EC21E53, 0x3EC1C148, 0x3EC16437,
  0x3EC1071E, 0x3EC0A9FD, 0x3EC04CD5, 0x3EBFEFA5, 0x3EBF926F, 0x3EBF3530, 0x3EBED7EB, 0x3EBE7A9E,
  0x3EBE1D4A, 0x3EBDBFEE, 0x3EBD628B, 0x3EBD0521, 0x3EBCA7AF, 0x3EBC4A36, 0x3EBBECB6, 0x3EBB8F2F,
  0x3EBB31A0, 0x3EBAD40B, 0x3EBA766E, 0x3EBA18CA, 0x3EB9BB1E, 0x3EB95D6C, 0x3EB8FFB2, 0x3EB8A1F1,
  0x3EB8442A, 0x3EB7E65B, 0x3EB78884, 0x3EB72AA7, 0x3EB6CCC3, 0x3EB66ED8, 0x3EB610E6, 0x3EB5B2EC,
  0x3EB554EC, 0x3EB4F6E5, 0x3EB498D6, 0x3EB43AC1, 0x3EB3DCA5, 0x3EB37E82, 0x3EB32058, 0x3EB2C227,
  0x3EB263EF, 0x3EB205B0, 0x3EB1A76B, 0x3EB1491E, 0x3EB0EACB, 0x3EB08C71, 0x3EB02E10, 0x3EAFCFA8,
  0x3EAF713A, 0x3EAF12C5, 0x3EAEB449, 0x3EAE55C6, 0x3EADF73C, 0x3EAD98AC, 0x3EAD3A15, 0x3EACDB78]

/-- R84: f32(cos(2πj/8192)) for j = 1600 .. 1663. -/
def quarterCos25 : List Nat := [
  0x3EAC7CD4, 0x3EAC1E29, 0x3EABBF77, 0x3EAB60BF, 0x3EAB0201, 0x3EAAA33B, 0x3EAA446F, 0x3EA9E59D,
  0x3EA986C4, 0x3EA927E5, 0x3EA8C8FE, 0x3EA86A12, 0x3EA80B1F, 0x3EA7AC25, 0x3EA74D25, 0x3EA6EE1F,
  0x3EA68F12, 0x3EA62FFF, 0x3EA5D0E5, 0x3EA571C5, 0x3EA5129F, 0x3EA4B372, 0x3EA4543F, 0x3EA3F505,
  0x3EA395C5, 0x3EA3367F, 0x3EA2D733, 0x3EA277E0, 0x3EA21887, 0x3EA1B928, 0x3EA159C2, 0x3EA0FA57,
  0x3EA09AE5, 0x3EA03B6D, 0x3E9FDBEE, 0x3E9F7C6A, 0x3E9F1CDF, 0x3E9EBD4F, 0x3E9E5DB8, 0x3E9DFE1B,
  0x3E9D9E78, 0x3E9D3ECF, 0x3E9CDF20, 0x3E9C7F6A, 0x3E9C1FAF, 0x3E9BBFEE, 0x3E9B6027, 0x3E9B0059,
  0x3E9AA086, 0x3E9A40AD, 0x3E99E0CE, 0x3E9980E9, 0x3E9920FE, 0x3E98C10D, 0x3E986116, 0x3E980119,
  0x3E97A117, 0x3E97410E, 0x3E96E100, 0x3E9680EC, 0x3E9620D2, 0x3E95C0B3, 0x3E95608D, 0x3E950062]

/-- R84: f32(cos(2πj/8192)) for j = 1664 .. 1727. -/
def quarterCos26 : List Nat := [
  0x3E94A031, 0x3E943FFB, 0x3E93DFBF, 0x3E937F7D, 0x3E931F35, 0x3E92BEE7, 0x3E925E94, 0x3E91FE3C,
  0x3E919DDD, 0x3E913D79, 0x3E90DD10, 0x3E907CA1, 0x3E901C2C, 0x3E8FBBB2, 0x3E8F5B32, 0x3E8EFAAD,
  0x3E8E9A22, 0x3E8E3992, 0x3E8DD8FC, 0x3E8D7861, 0x3E8D17C0, 0x3E8CB71A, 0x3E8C566E, 0x3E8BF5BD,
  0x3E8B9507, 0x3E8B344B, 0x3E8AD38A, 0x3E8A72C3, 0x3E8A11F7, 0x3E89B126, 0x3E895050, 0x3E88EF74,
  0x3E888E93, 0x3E882DAD, 0x3E87CCC1, 0x3E876BD0, 0x3E870ADA, 0x3E86A9DF, 0x3E8648DF, 0x3E85E7D9,
  0x3E8586CE, 0x3E8525BF, 0x3E84C4AA, 0x3E84638F, 0x3E840270, 0x3E83A14C, 0x3E834022, 0x3E82DEF4,
  0x3E827DC0, 0x3E821C88, 0x3E81BB4A, 0x3E815A08, 0x3E80F8C0, 0x3E809774, 0x3E803622, 0x3E7FA998,
  0x3E7EE6E1, 0x3E7E2420, 0x3E7D6156, 0x3E7C9E82, 0x3E7BDBA4, 0x3E7B18BC, 0x3E7A55CB, 0x3E7992D0]

/-- R84: f32(cos(2πj/8192)) for j = 1728 .. 1791. -/
def quarterCos27 : List Nat := [
  0x3E78CFCC, 0x3E780CBE, 0x3E7749A6, 0x3E768685, 0x3E75C35A, 0x3E750026, 0x3E743CE8, 0x3E7379A1,
  0x3E72B651, 0x3E71F2F7, 0x3E712F94, 0x3E706C28, 0x3E6FA8B2, 0x3E6EE533, 0x3E6E21AB, 0x3E6D5E1A,
  0x3E6C9A7F, 0x3E6BD6DC, 0x3E6B132F, 0x3E6A4F79, 0x3E698BBA, 0x3E68C7F3, 0x3E680422, 0x3E674048,
  0x3E667C66, 0x3E65B87A, 0x3E64F486, 0x3E643089, 0x3E636C83, 0x3E62A874, 0x3E61E45C, 0x3E61203C,
  0x3E605C13, 0x3E5F97E2, 0x3E5ED3A8, 0x3E5E0F65, 0x3E5D4B1A, 0x3E5C86C6, 0x3E5BC26A, 0x3E5AFE05,
  0x3E5A3997, 0x3E597522, 0x3E58B0A4, 0x3E57EC1D, 0x3E57278F, 0x3E5662F8, 0x3E559E58, 0x3E54D9B1,
  0x3E541501, 0x3E535049, 0x3E528B89, 0x3E51C6C1, 0x3E5101F1, 0x3E503D19, 0x3E4F7838, 0x3E4EB350,
  0x3E4DEE60, 0x3E4D2967, 0x3E4C6467, 0x3E4B9F5F, 0x3E4ADA4F, 0x3E4A1538, 0x3E495018, 0x3E488AF1]

/-- R84: f32(cos(2πj/8192)) for j = 1792 .. 1855. -/
def quarterCos28 : List Nat := [
  0x3E47C5C2, 0x3E47008B, 0x3E463B4D, 0x3E457607, 0x3E44B0B9, 0x3E43EB64, 0x3E432607, 0x3E4260A3,
  0x3E419B37, 0x3E40D5C4, 0x3E401049, 0x3E3F4AC7, 0x3E3E853E, 0x3E3DBFAD, 0x3E3CFA15, 0x3E3C3476,
  0x3E3B6ECF, 0x3E3AA921, 0x3E39E36C, 0x3E391DB0, 0x3E3857EC, 0x3E379222, 0x3E36CC50, 0x3E360678,
  0x3E354098, 0x3E347AB2, 0x3E33B4C4, 0x3E32EECF, 0x3E3228D4, 0x3E3162D2, 0x3E309CC9, 0x3E2FD6B9,
  0x3E2F10A2, 0x3E2E4A85, 0x3E2D8461, 0x3E2CBE36, 0x3E2BF804, 0x3E2B31CC, 0x3E2A6B8D, 0x3E29A548,
  0x3E28DEFC, 0x3E2818AA, 0x3E275251, 0x3E268BF2, 0x3E25C58C, 0x3E24FF20, 0x3E2438AD, 0x3E237235,
  0x3E22ABB6, 0x3E21E530, 0x3E211EA5, 0x3E205813, 0x3E1F917B, 0x3E1ECADD, 0x3E1E0438, 0x3E1D3D8E,
  0x3E1C76DE, 0x3E1BB027, 0x3E1AE96B, 0x3E1A22A8, 0x3E195BE0, 0x3E189511, 0x3E17CE3D, 0x3E170763]

/-- R84: f32(cos(2πj/8192)) for j = 1856 .. 1919. -/
def quarterCos29 : List Nat := [
  0x3E164083, 0x3E15799E, 0x3E14B2B2, 0x3E13EBC1, 0x3E1324CA, 0x3E125DCE, 0x3E1196CC, 0x3E10CFC4,
  0x3E1008B7, 0x3E0F41A4, 0x3E0E7A8B, 0x3E0DB36D, 0x3E0CEC4A, 0x3E0C2521, 0x3E0B5DF3, 0x3E0A96BF,
  0x3E09CF86, 0x3E090848, 0x3E084105, 0x3E0779BC, 0x3E06B26E, 0x3E05EB1B, 0x3E0523C2, 0x3E045C65,
  0x3E039502, 0x3E02CD9B, 0x3E02062E, 0x3E013EBC, 0x3E007745, 0x3DFF5F94, 0x3DFDD092, 0x3DFC4187,
  0x3DFAB273, 0x3DF92354, 0x3DF7942C, 0x3DF604FB, 0x3DF475C0, 0x3DF2E67C, 0x3DF1572E, 0x3DEFC7D7,
  0x3DEE3876, 0x3DECA90D, 0x3DEB199A, 0x3DE98A1F, 0x3DE7FA9A, 0x3DE66B0C, 0x3DE4DB76, 0x3DE34BD6,
  0x3DE1BC2E, 0x3DE02C7D, 0x3DDE9CC4, 0x3DDD0D02, 0x3DDB7D37, 0x3DD9ED64, 0x3DD85D89, 0x3DD6CDA5,
  0x3DD53DB9, 0x3DD3ADC5, 0x3DD21DC8, 0x3DD08DC4, 0x3DCEFDB7, 0x3DCD6DA3, 0x3DCBDD86, 0x3DCA4D62]

/-- R84: f32(cos(2πj/8192)) for j = 1920 .. 1983. -/
def quarterCos30 : List Nat := [
  0x3DC8BD36, 0x3DC72D02, 0x3DC59CC6, 0x3DC40C83, 0x3DC27C39, 0x3DC0EBE6, 0x3DBF5B8D, 0x3DBDCB2C,
  0x3DBC3AC3, 0x3DBAAA54, 0x3DB919DD, 0x3DB7895F, 0x3DB5F8DA, 0x3DB4684E, 0x3DB2D7BB, 0x3DB14721,
  0x3DAFB680, 0x3DAE25D9, 0x3DAC952B, 0x3DAB0476, 0x3DA973BA, 0x3DA7E2F8, 0x3DA65230, 0x3DA4C161,
  0x3DA3308C, 0x3DA19FB0, 0x3DA00ECF, 0x3D9E7DE7, 0x3D9CECF9, 0x3D9B5C05, 0x3D99CB0A, 0x3D983A0A,
  0x3D96A905, 0x3D9517F9, 0x3D9386E7, 0x3D91F5D0, 0x3D9064B4, 0x3D8ED391, 0x3D8D426A, 0x3D8BB13C,
  0x3D8A200A, 0x3D888ED2, 0x3D86FD94, 0x3D856C52, 0x3D83DB0A, 0x3D8249BE, 0x3D80B86C, 0x3D7E4E2B,
  0x3D7B2B74, 0x3D7808B3, 0x3D74E5E9, 0x3D71C315, 0x3D6EA038, 0x3D6B7D51, 0x3D685A62, 0x3D65376A,
  0x3D621469, 0x3D5EF15F, 0x3D5BCE4C, 0x3D58AB31, 0x3D55880E, 0x3D5264E2, 0x3D4F41AF, 0x3D4C1E73]

/-- R84: f32(cos(2πj/8192)) for j = 1984 .. 2047. -/
def quarterCos31 : List Nat := [
  0x3D48FB30, 0x3D45D7E4, 0x3D42B491, 0x3D3F9137, 0x3D3C6DD5, 0x3D394A6C, 0x3D3626FC, 0x3D330385,
  0x3D2FE007, 0x3D2CBC82, 0x3D2998F6, 0x3D267564, 0x3D2351CB, 0x3D202E2D, 0x3D1D0A88, 0x3D19E6DD,
  0x3D16C32C, 0x3D139F75, 0x3D107BB8, 0x3D0D57F6, 0x3D0A342F, 0x3D071062, 0x3D03EC90, 0x3D00C8B9,
  0x3CFB49BA, 0x3CF501F8, 0x3CEEBA2C, 0x3CE87258, 0x3CE22A7A, 0x3CDBE294, 0x3CD59AA6, 0x3CCF52AF,
  0x3CC90AB0, 0x3CC2C2A9, 0x3CBC7A9B, 0x3CB63286, 0x3CAFEA69, 0x3CA9A246, 0x3CA35A1C, 0x3C9D11EC,
  0x3C96C9B6, 0x3C90817A, 0x3C8A3938, 0x3C83F0F2, 0x3C7B514B, 0x3C6EC0AA, 0x3C622FFF, 0x3C559F4C,
  0x3C490E90, 0x3C3C7DCC, 0x3C2FED02, 0x3C235C30, 0x3C16CB58, 0x3C0A3A7B, 0x3BFB5330, 0x3BE23160,
  0x3BC90F88, 0x3BAFEDA8, 0x3B96CBC1, 0x3B7B53A9, 0x3B490FC6, 0x3B16CBDB, 0x3AC90FD5, 0x3A490FD9]

/-- R84: f32(cos(2πj/8192)) for j = 2048 .. 2048. -/
def quarterCos32 : List Nat := [
  0x00000000]

/-- R84: f32(cos(2πj/8192)) for j = 0 .. 2048, as binary32 patterns. -/
def quarterCos : List Nat :=
  quarterCos00 ++ quarterCos01 ++ quarterCos02 ++ quarterCos03 ++ quarterCos04 ++ quarterCos05 ++
  quarterCos06 ++ quarterCos07 ++ quarterCos08 ++ quarterCos09 ++ quarterCos10 ++ quarterCos11 ++
  quarterCos12 ++ quarterCos13 ++ quarterCos14 ++ quarterCos15 ++ quarterCos16 ++ quarterCos17 ++
  quarterCos18 ++ quarterCos19 ++ quarterCos20 ++ quarterCos21 ++ quarterCos22 ++ quarterCos23 ++
  quarterCos24 ++ quarterCos25 ++ quarterCos26 ++ quarterCos27 ++ quarterCos28 ++ quarterCos29 ++
  quarterCos30 ++ quarterCos31 ++ quarterCos32

/-- Entry `j` of the quarter wave. -/
def quarterCosAt (j : Nat) : Word := BitVec.ofNat 32 (quarterCos.getD j 0)

/-- A non-zero binary32 value with its sign flipped; a zero stays +0 (R84: an exactly zero real
rounds to +0). -/
def flipUnlessZero (x : Word) : Word := if x = 0#32 then 0#32 else x ^^^ 0x80000000#32

/-- f32(cos(2πj/8192)) for `j` in [0, 4096]. -/
def cosAt (j : Nat) : Word :=
  if j ≤ 2048 then quarterCosAt j else flipUnlessZero (quarterCosAt (4096 - j))

/-- f32(−sin(2πj/8192)) for `j` in [0, 4096]. -/
def negSinAt (j : Nat) : Word :=
  flipUnlessZero (if j ≤ 2048 then quarterCosAt (2048 - j) else quarterCosAt (j - 2048))

/-- R84: `TWR[j]` of an instance with the given LOG2N_MAX (at most 13). -/
def twr (log2nMax j : Nat) : Word := cosAt (j * 2 ^ (13 - log2nMax))

/-- R84: `TWI[j]` of an instance with the given LOG2N_MAX (at most 13). -/
def twi (log2nMax j : Nat) : Word := negSinAt (j * 2 ^ (13 - log2nMax))

end Sys2Proof.Machine
end

