-- ==== Sys2Proof/Machine/Fft.lean ====
section
/-! DEFINITION. The FFT engine (40_fft.md R84 to R94): twiddles, bit reversal, the butterfly network,
and INIT, FFT_FWD, FFT_INV, FFTSHIFT, MAG, PHASE, POLAR. -/

namespace Sys2Proof.Machine

/-! ### Datapath elements -/

/-- `W_N(k)` for `N = 2^L` (R85). -/
def wN (log2nMax l k : Nat) : Cplx :=
  ⟨twr log2nMax (k * 2 ^ (log2nMax - l)), twi log2nMax (k * 2 ^ (log2nMax - l))⟩

/-- `bitrev_L(i)` (R86): bit `b` of `i` becomes bit `L − 1 − b`. -/
def bitrev : Nat → Nat → Nat
  | 0, _ => 0
  | l + 1, i => i % 2 * 2 ^ l + bitrev l (i / 2)

/-- `(SR[i], SI[i])` (R46). -/
def Scratch.get (x : Scratch) (i : Nat) : Cplx := ⟨x.sr.getD i fZERO, x.si.getD i fZERO⟩

/-- `(SR[i], SI[i]) <- v` (R46). -/
def Scratch.put (x : Scratch) (i : Nat) (v : Cplx) : Scratch := ⟨x.sr.set i v.re, x.si.set i v.im⟩

/-- One butterfly on the pair `(p, q)` with the twiddle `w`, the left operand of cmul (R87). -/
def butterfly (w : Cplx) (p q : Nat) (x : Scratch) : Scratch :=
  let t := cmul w (x.get q)
  let u := x.get p
  (x.put p (cadd u t)).put q (csub u t)

/-- The twiddle of a butterfly: conjugated for the inverse transform (R87). -/
def twiddle (log2nMax l : Nat) (cj : Bool) (k : Nat) : Cplx :=
  if cj then cconj (wN log2nMax l k) else wN log2nMax l k

/-- Stage `st` of the network: groups `g = gi · 2^(st+1)`, then `j`, both ascending (R87). -/
def stage (log2nMax l : Nat) (cj : Bool) (st : Nat) (x : Scratch) : Scratch :=
  loop (2 ^ l / 2 ^ (st + 1))
    (fun gi x => loop (2 ^ st)
      (fun j x => butterfly (twiddle log2nMax l cj (j * (2 ^ l / 2 ^ (st + 1))))
        (gi * 2 ^ (st + 1) + j) (gi * 2 ^ (st + 1) + j + 2 ^ st) x) x) x

/-- `Butterflies(cj)`: the stages, ascending (R87). -/
def butterflies (log2nMax l : Nat) (cj : Bool) (x : Scratch) : Scratch :=
  loop l (stage log2nMax l cj) x

/-! ### INIT -/

/-- The effect of INIT (R88): `CFG.LOG2N <- CNT[4:0]`, INIT_DONE <- 1. -/
def initEffect (cnt : Nat) (s : State) : State :=
  { s with log2n := BitVec.ofNat 5 cnt, initDone := true }

/-- INIT (R88). -/
def execInit (cnt : Nat) (s : State) : Out := complete (.init cnt) (initEffect cnt) s

/-! ### The transforms -/

/-- FFT_FWD's first loop: real input into the scratch in bit-reversed order (R89). -/
def loadReal (l a : Nat) (m : Mem) (x : Scratch) : Scratch :=
  loop (2 ^ l) (fun i x => x.put i ⟨memWord m (a + bitrev l i), fZERO⟩) x

/-- FFT_FWD's last loop: the scratch into the Z-buffer at `b` (R89). -/
def storeSpectrum (l b : Nat) (x : Scratch) (m : Mem) : Mem :=
  loop (2 ^ l) (fun i m => zWrite (2 ^ l) m b i (x.get i)) m

/-- FFT_INV's first loop: the Z-buffer at `a` into the scratch in bit-reversed order (R90). -/
def loadSpectrum (l a : Nat) (m : Mem) (x : Scratch) : Scratch :=
  loop (2 ^ l) (fun i x => x.put i (zRead (2 ^ l) m a (bitrev l i))) x

/-- `f32(N)`, exact (R90). -/
def f32OfNat (n : Nat) : Word := f32OfRatio n 1

/-- FFT_INV's last loop: each real part divided by N; the imaginary parts are discarded (R90). -/
def storeReal (l b : Nat) (x : Scratch) (m : Mem) : Mem :=
  loop (2 ^ l) (fun i m => setWord m (b + i) (fdiv (x.get i).re (f32OfNat (2 ^ l)))) m

/-- The scratch after the butterflies of FFT_FWD (R89). -/
def fwdScratch (log2nMax l a : Nat) (m : Mem) (x : Scratch) : Scratch :=
  butterflies log2nMax l false (loadReal l a m x)

/-- The scratch after the butterflies of FFT_INV (R90). -/
def invScratch (log2nMax l a : Nat) (m : Mem) (x : Scratch) : Scratch :=
  butterflies log2nMax l true (loadSpectrum l a m x)

/-- The effect of FFT_FWD (R89). -/
def fftFwdEffect (a b : Nat) (s : State) : State :=
  let x := fwdScratch s.hw.log2nMax s.log2n.toNat a s.mem s.scratch
  (s.setScratch x).setMem (storeSpectrum s.log2n.toNat b x s.mem)

/-- FFT_FWD (R89). -/
def execFftFwd (a b : Nat) (s : State) : Out := complete (.fftFwd a b) (fftFwdEffect a b) s

/-- The effect of FFT_INV (R90). -/
def fftInvEffect (a b : Nat) (s : State) : State :=
  let x := invScratch s.hw.log2nMax s.log2n.toNat a s.mem s.scratch
  (s.setScratch x).setMem (storeReal s.log2n.toNat b x s.mem)

/-- FFT_INV (R90). -/
def execFftInv (a b : Nat) (s : State) : Out := complete (.fftInv a b) (fftInvEffect a b) s

/-- The words FFTSHIFT swaps (R91). -/
def fftshiftMem (n a : Nat) : Mem → Mem :=
  loop (n / 2) fun i m =>
    let t := memWord m (a + i)
    setWord (setWord m (a + i) (memWord m (a + n / 2 + i))) (a + n / 2 + i) t

/-- FFTSHIFT (R91). -/
def execFftshift (a : Nat) (s : State) : Out :=
  complete (.fftshift a) (fun s => s.setMem (fftshiftMem s.nPoints a s.mem)) s

/-! ### Per-bin conversions -/

/-- The magnitude of a bin, unscaled (R92). -/
def magnitude (z : Cplx) : Word := fsqrt (fadd (fmul z.re z.re) (fmul z.im z.im))

/-- The words MAG writes (R92). -/
def magMem (n a b : Nat) : Mem → Mem :=
  loop n fun k m => setWord m (b + k) (magnitude (zRead n m a k))

/-- MAG (R92). -/
def execMag (a b : Nat) (s : State) : Out :=
  complete (.mag a b) (fun s => s.setMem (magMem s.nPoints a b s.mem)) s

/-- The words PHASE writes (R93). -/
def phaseMem (n a b : Nat) : Mem → Mem :=
  loop n fun k m => setWord m (b + k) (atan2F32 (zRead n m a k).im (zRead n m a k).re)

/-- PHASE (R93). -/
def execPhase (a b : Nat) (s : State) : Out :=
  complete (.phase a b) (fun s => s.setMem (phaseMem s.nPoints a b s.mem)) s

/-- The bin of a magnitude and a phase (R94). -/
def polarOf (m p : Word) : Cplx := ⟨fmul m (cos32 p), fmul m (sin32 p)⟩

/-- The words POLAR writes; both inputs of a bin are read before its outputs are written (R94). -/
def polarMem (n a b c : Nat) : Mem → Mem :=
  loop n fun k m => zWrite n m c k (polarOf (memWord m (a + k)) (memWord m (b + k)))

/-- POLAR (R94). -/
def execPolar (a b c : Nat) (s : State) : Out :=
  complete (.polar a b c) (fun s => s.setMem (polarMem s.nPoints a b c s.mem)) s

end Sys2Proof.Machine
end

