-- ==== Sys2Proof/Machine/Frame.lean ====
section
/-! DEFINITION. The frame processor (42_frame.md R100 to R108): VMUL, ZPAD, HIST_PUSH, HIST_EXTRACT,
OLA_ADD, OLA_DRAIN, OLA_DRAIN_MIX, SPLIT_CARRY. -/

namespace Sys2Proof.Machine

/-- The words VMUL writes (R101). -/
def vmulMem (a b c cnt : Nat) : Mem → Mem :=
  loop cnt fun i m => setWord m (c + i) (fmul (memWord m (a + i)) (memWord m (b + i)))

/-- VMUL (R101). -/
def execVmul (a b c cnt : Nat) (s : State) : Out :=
  complete (.vmul a b c cnt) (fun s => s.setMem (vmulMem a b c cnt s.mem)) s

/-- The words ZPAD writes (R102). -/
def zpadMem (n a b cnt : Nat) : Mem → Mem :=
  loop n fun i m => setWord m (b + i) (if i < cnt then memWord m (a + i) else fZERO)

/-- ZPAD (R102). -/
def execZpad (a b cnt : Nat) (s : State) : Out :=
  complete (.zpad a b cnt) (fun s => s.setMem (zpadMem s.nPoints a b cnt s.mem)) s

/-- The words HIST_PUSH writes, from the head `h` on (R103). -/
def histPushMem (lg cnt a b h : Nat) : Mem → Mem :=
  loop cnt fun i m => setWord m (slotAt b lg h i) (memWord m (a + i))

/-- HIST_PUSH (R103). -/
def execHistPush (pr : Fin 8) (lg cnt a b : Nat) (s : State) : Out :=
  complete (.histPush pr lg cnt a b)
    (fun s => (s.setMem (histPushMem lg cnt a b (headOf s pr lg) s.mem)).advance pr lg cnt) s

/-- The words HIST_EXTRACT writes, the most recent CNT samples, oldest first (R104). -/
def histExtractMem (lg cnt b c h : Nat) : Mem → Mem :=
  loop cnt fun i m => setWord m (c + i) (memWord m (slotAt b lg h ((i : Int) - (cnt : Int))))

/-- HIST_EXTRACT (R104); the pointer register is read and not written. -/
def execHistExtract (pr : Fin 8) (lg cnt b c : Nat) (s : State) : Out :=
  complete (.histExtract pr lg cnt b c)
    (fun s => s.setMem (histExtractMem lg cnt b c (headOf s pr lg) s.mem)) s

/-- The words OLA_ADD writes; the accumulator value is the left operand (R105). -/
def olaAddMem (lg cnt a b h : Nat) : Mem → Mem :=
  loop cnt fun i m =>
    setWord m (slotAt b lg h i) (fadd (memWord m (slotAt b lg h i)) (memWord m (a + i)))

/-- OLA_ADD (R105); the head advances by D. -/
def execOlaAdd (pr : Fin 8) (lg cnt a b d : Nat) (s : State) : Out :=
  complete (.olaAdd pr lg cnt a b d)
    (fun s => (s.setMem (olaAddMem lg cnt a b (headOf s pr lg) s.mem)).advance pr lg d) s

/-- The words OLA_DRAIN writes: each slot is zeroed before its output word is written (R106). -/
def olaDrainMem (lg cnt b c h : Nat) : Mem → Mem :=
  loop cnt fun i m =>
    setWord (setWord m (slotAt b lg h i) fZERO) (c + i) (memWord m (slotAt b lg h i))

/-- OLA_DRAIN (R106). -/
def execOlaDrain (pr : Fin 8) (lg cnt b c : Nat) (s : State) : Out :=
  complete (.olaDrain pr lg cnt b c)
    (fun s => (s.setMem (olaDrainMem lg cnt b c (headOf s pr lg) s.mem)).advance pr lg cnt) s

/-- The dry/wet mix of one sample, the dry term on the left (R107). -/
def mixSample (mix omMix dry wet : Word) : Word := fadd (fmul dry omMix) (fmul wet mix)

/-- The words OLA_DRAIN_MIX writes: wet and dry are read, then the slot is zeroed, then the output
word is written (R107). -/
def olaDrainMixMem (lg cnt a b c h : Nat) (mix omMix : Word) : Mem → Mem :=
  loop cnt fun i m =>
    setWord (setWord m (slotAt b lg h i) fZERO) (c + i)
      (mixSample mix omMix (memWord m (a + i)) (memWord m (slotAt b lg h i)))

/-- OLA_DRAIN_MIX (R107). -/
def execOlaDrainMix (pr : Fin 8) (lg cnt a b c : Nat) (s : State) : Out :=
  complete (.olaDrainMix pr lg cnt a b c)
    (fun s => (s.setMem
      (olaDrainMixMem lg cnt a b c (headOf s pr lg) s.mix s.omMix s.mem)).advance pr lg cnt) s

/-- The words SPLIT_CARRY writes: the three inputs are read, then the output, then the carry is
written (R108). -/
def splitCarryMem (a b c cnt : Nat) : Mem → Mem :=
  loop cnt fun i m =>
    setWord (setWord m (c + i) (fadd (memWord m (a + i)) (memWord m (b + i)))) (b + i)
      (memWord m (a + cnt + i))

/-- SPLIT_CARRY (R108). -/
def execSplitCarry (a b c cnt : Nat) (s : State) : Out :=
  complete (.splitCarry a b c cnt) (fun s => s.setMem (splitCarryMem a b c cnt s.mem)) s

end Sys2Proof.Machine
end

