-- ==== Sys2Proof/Machine/Phase.lean ====
section
/-! DEFINITION. The phase unit (41_phase.md R95 to R99): princarg, OMEGA, and PRINCARG, PHASEDIFF,
PV_UNWRAP. -/

namespace Sys2Proof.Machine

/-- The principal argument, five rounded operations in the order of R95. -/
def princarg (x : Word) : Word :=
  let a := fadd x piF32
  let b := fdiv a twoPiF32
  let c := ffloor b
  let d := fmul twoPiF32 c
  fsub x d

/-- `OMEGA(k, hop) = f32(TWO_PI_F32 · k · hop / N)`, the exact product rounded once (R96).
TWO_PI_F32 is exactly 0xC90FDB · 2^-21. -/
def omega (n k hop : Nat) : Word := f32OfRatio (0xC90FDB * k * hop) (2 ^ 21 * n)

/-- The words PRINCARG writes (R97). -/
def princargMem (a b cnt : Nat) : Mem → Mem :=
  loop cnt fun i m => setWord m (b + i) (princarg (memWord m (a + i)))

/-- PRINCARG (R97). -/
def execPrincarg (a b cnt : Nat) (s : State) : Out :=
  complete (.princarg a b cnt) (fun s => s.setMem (princargMem a b cnt s.mem)) s

/-- The words PHASEDIFF writes (R98). -/
def phasediffMem (a b c cnt : Nat) : Mem → Mem :=
  loop cnt fun i m => setWord m (c + i) (princarg (fsub (memWord m (a + i)) (memWord m (b + i))))

/-- PHASEDIFF (R98). -/
def execPhasediff (a b c cnt : Nat) (s : State) : Out :=
  complete (.phasediff a b c cnt) (fun s => s.setMem (phasediffMem a b c cnt s.mem)) s

/-- The advance `Δφ` of one bin: `om + princarg((ph − pv) − om)` (R99). -/
def phaseAdvance (om ph pv : Word) : Word := fadd om (princarg (fsub (fsub ph pv) om))

/-- The new accumulated phase of one bin (R99). -/
def accumulate (invRatio om ph pv ac : Word) : Word :=
  princarg (fadd ac (fmul (phaseAdvance om ph pv) invRatio))

/-- The words PV_UNWRAP writes: each bin's three inputs are read, then its previous phase and then
its accumulated phase are written (R99). -/
def pvUnwrapMem (n a b c hop : Nat) (invRatio : Word) : Mem → Mem :=
  loop n fun k m =>
    let ph := memWord m (a + k)
    let pv := memWord m (b + k)
    let ac := memWord m (c + k)
    setWord (setWord m (b + k) ph) (c + k) (accumulate invRatio (omega n k hop) ph pv ac)

/-- PV_UNWRAP (R99). -/
def execPvUnwrap (a b c cnt : Nat) (s : State) : Out :=
  complete (.pvUnwrap a b c cnt)
    (fun s => s.setMem (pvUnwrapMem s.nPoints a b c cnt s.invRatio s.mem)) s

end Sys2Proof.Machine
end

