-- ==== Sys2Proof/Machine/Spectral.lean ====
section
/-! DEFINITION. The spectral multiplier (43_spectral_multiplier.md R109 to R112): CMUL, CMAT_APPLY,
CMAT_INV. -/

namespace Sys2Proof.Machine

/-- The words CMUL writes: both input pairs of a bin are read before its outputs are written (R110). -/
def cmulMem (n a b c : Nat) : Mem → Mem :=
  loop n fun k m => zWrite n m c k (cmul (zRead n m a k) (zRead n m b k))

/-- CMUL (R110). -/
def execCmul (a b c : Nat) (s : State) : Out :=
  complete (.cmul a b c) (fun s => s.setMem (cmulMem s.nPoints a b c s.mem)) s

/-- A row of the matrix-vector product: `cadd(cmul(hL, xL), cmul(hR, xR))` (R111). -/
def rowTimes (hl hr xl xr : Cplx) : Cplx := cadd (cmul hl xl) (cmul hr xr)

/-- The words CMAT_APPLY writes: all six inputs of a bin are read before its four outputs are written
(R111). -/
def cmatApplyMem (n a b c : Nat) : Mem → Mem :=
  loop n fun k m =>
    let h := matRead n m a k
    let xl := zRead n m b k
    let xr := zRead n m (b + 2 * n) k
    zWrite n (zWrite n m c k (rowTimes h.e11 h.e12 xl xr)) (c + 2 * n) k (rowTimes h.e21 h.e22 xl xr)

/-- CMAT_APPLY (R111). -/
def execCmatApply (a b c : Nat) (s : State) : Out :=
  complete (.cmatApply a b c) (fun s => s.setMem (cmatApplyMem s.nPoints a b c s.mem)) s

/-- The Gram matrix `CᴴC + βI` with the grouping of R112. -/
def gram (beta : Word) (c : Mat2) : Mat2 :=
  let bt : Cplx := ⟨beta, fZERO⟩
  ⟨cadd (cadd (cmul (cconj c.e11) c.e11) (cmul (cconj c.e21) c.e21)) bt,
   cadd (cmul (cconj c.e11) c.e12) (cmul (cconj c.e21) c.e22),
   cadd (cmul (cconj c.e12) c.e11) (cmul (cconj c.e22) c.e21),
   cadd (cadd (cmul (cconj c.e12) c.e12) (cmul (cconj c.e22) c.e22)) bt⟩

/-- The determinant of a 2×2 matrix (R112). -/
def det2 (g : Mat2) : Cplx := csub (cmul g.e11 g.e22) (cmul g.e12 g.e21)

/-- The floored squared magnitude of the determinant; a NaN stays (R112). -/
def flooredSq (d : Cplx) : Word :=
  let s := fadd (fmul d.re d.re) (fmul d.im d.im)
  if flt s detFloor then detFloor else s

/-- `conj(det) / d2` (R112). -/
def invDet (d : Cplx) : Cplx :=
  let d2 := flooredSq d
  ⟨fdiv d.re d2, fdiv (fneg d.im) d2⟩

/-- The adjugate-based inverse of the Gram matrix (R112). -/
def invGram (g : Mat2) : Mat2 :=
  let inv := invDet (det2 g)
  ⟨cmul g.e22 inv, cmul (cneg g.e12) inv, cmul (cneg g.e21) inv, cmul g.e11 inv⟩

/-- `H = G⁻¹ Cᴴ` (R112). -/
def timesConjTranspose (i c : Mat2) : Mat2 :=
  ⟨cadd (cmul i.e11 (cconj c.e11)) (cmul i.e12 (cconj c.e12)),
   cadd (cmul i.e11 (cconj c.e21)) (cmul i.e12 (cconj c.e22)),
   cadd (cmul i.e21 (cconj c.e11)) (cmul i.e22 (cconj c.e12)),
   cadd (cmul i.e21 (cconj c.e21)) (cmul i.e22 (cconj c.e22))⟩

/-- The regularized pseudo-inverse of one bin (R112). -/
def pseudoInverse (beta : Word) (c : Mat2) : Mat2 := timesConjTranspose (invGram (gram beta c)) c

/-- The words CMAT_INV writes (R112). -/
def cmatInvMem (n a b : Nat) (beta : Word) : Mem → Mem :=
  loop n fun k m => matWrite n m b k (pseudoInverse beta (matRead n m a k))

/-- CMAT_INV (R112). -/
def execCmatInv (a b : Nat) (s : State) : Out :=
  complete (.cmatInv a b) (fun s => s.setMem (cmatInvMem s.nPoints a b s.beta s.mem)) s

end Sys2Proof.Machine
end

