-- ==== Sys2Proof/Machine/Dispatch.lean ====
section
/-! DEFINITION. The dispatch: one arm per command of the opcode map (30_encoding.md R76). `exec i s` is
the complete step (10_state.md R50) of the command `i` in the state `s`. -/

namespace Sys2Proof.Machine

def exec (i : Instr) (s : State) : Host.Outcome State Fault Refusal :=
  match i with
  | .nop => Sys2Proof.Machine.execNop s
  | .setparam cnt imm => Sys2Proof.Machine.execSetparam cnt imm s
  | .setp pr cnt => Sys2Proof.Machine.execSetp pr cnt s
  | .fill a cnt imm => Sys2Proof.Machine.execFill a cnt imm s
  | .copy a b cnt => Sys2Proof.Machine.execCopy a b cnt s
  | .init cnt => Sys2Proof.Machine.execInit cnt s
  | .fftFwd a b => Sys2Proof.Machine.execFftFwd a b s
  | .fftInv a b => Sys2Proof.Machine.execFftInv a b s
  | .fftshift a => Sys2Proof.Machine.execFftshift a s
  | .mag a b => Sys2Proof.Machine.execMag a b s
  | .phase a b => Sys2Proof.Machine.execPhase a b s
  | .polar a b c => Sys2Proof.Machine.execPolar a b c s
  | .princarg a b cnt => Sys2Proof.Machine.execPrincarg a b cnt s
  | .phasediff a b c cnt => Sys2Proof.Machine.execPhasediff a b c cnt s
  | .pvUnwrap a b c cnt => Sys2Proof.Machine.execPvUnwrap a b c cnt s
  | .vmul a b c cnt => Sys2Proof.Machine.execVmul a b c cnt s
  | .zpad a b cnt => Sys2Proof.Machine.execZpad a b cnt s
  | .histPush pr lg cnt a b => Sys2Proof.Machine.execHistPush pr lg cnt a b s
  | .histExtract pr lg cnt b c => Sys2Proof.Machine.execHistExtract pr lg cnt b c s
  | .olaAdd pr lg cnt a b d => Sys2Proof.Machine.execOlaAdd pr lg cnt a b d s
  | .olaDrain pr lg cnt b c => Sys2Proof.Machine.execOlaDrain pr lg cnt b c s
  | .olaDrainMix pr lg cnt a b c => Sys2Proof.Machine.execOlaDrainMix pr lg cnt a b c s
  | .splitCarry a b c cnt => Sys2Proof.Machine.execSplitCarry a b c cnt s
  | .cmul a b c => Sys2Proof.Machine.execCmul a b c s
  | .cmatApply a b c => Sys2Proof.Machine.execCmatApply a b c s
  | .cmatInv a b => Sys2Proof.Machine.execCmatInv a b s

end Sys2Proof.Machine
end

