-- ==== Sys2Proof/Machine/Flags.lean ====
section
/-! DEFINITION. The status bits and the words the host reads them in (10_state.md R25 to R34, R41,
R42), and the interrupt output (60_exceptions.md R125). The DSE has no arithmetic flags (R24). -/

namespace Sys2Proof.Machine

/-- STATUS[0] BUSY: the engine holds a command it has issued and not completed (R28, R48). -/
def State.busy (s : State) : Bool := s.cur.isSome

/-- CQ_LEVEL (R32): the number of commands in the queue. -/
def State.cqLevel (s : State) : Nat := s.queue.length

/-- STATUS[1] ACTIVE = BUSY or CQ_LEVEL > 0 (R28). -/
def State.active (s : State) : Bool := s.busy || decide (0 < s.cqLevel)

/-- A bit at a position of a word. -/
def bitAt (b : Bool) (pos : Nat) : Nat := if b then 2 ^ pos else 0

/-- The word a read of STATUS returns (R28). -/
def State.statusWord (s : State) : Word :=
  BitVec.ofNat 32 (bitAt s.busy 0 + bitAt s.active 1 + bitAt s.initDone 2 + bitAt s.faulted 3 +
    bitAt s.doneBit 4 + bitAt s.hcollBit 5)

/-- The word a read of HWCFG returns (R26). -/
def hwcfgWord (h : HwCfg) : Word :=
  BitVec.ofNat 32 (h.log2nMax % 2 ^ 5 + h.dmemLog2 % 2 ^ 5 * 2 ^ 8 + h.cqDepth % 2 ^ 8 * 2 ^ 16)

/-- The code CAUSE holds (R119). -/
def Cause.code : Cause → BitVec 8
  | .none => 0x00#8
  | .illegalOpcode => 0x01#8
  | .reservedField => 0x02#8
  | .notInit => 0x03#8
  | .fieldRange => 0x04#8
  | .addrRange => 0x05#8
  | .cqOverflow => 0x06#8

/-- IRQ_EN[0] DONE_EN (R29). -/
def State.doneEn (s : State) : Bool := s.irqEn.getLsbD 0
/-- IRQ_EN[1] FAULT_EN (R29). -/
def State.faultEn (s : State) : Bool := s.irqEn.getLsbD 1
/-- IRQ_EN[2] HCOLL_EN (R29). -/
def State.hcollEn (s : State) : Bool := s.irqEn.getLsbD 2

/-- The interrupt output, a function of the state at every moment (R125). -/
def State.irq (s : State) : Bool :=
  (s.doneBit && s.doneEn) || (s.faulted && s.faultEn) || (s.hcollBit && s.hcollEn)

/-- The engine's three states (R48). -/
inductive EngineMode where
  | idle | exec | stopped
  deriving DecidableEq, Repr

/-- R48: EXEC while BUSY = 1; else STOPPED while FAULT = 1; else IDLE. -/
def State.mode (s : State) : EngineMode :=
  if s.busy then .exec else if s.faulted then .stopped else .idle

/-- The value a host read of the register at byte offset `off` (below 0x40000) returns: the table of
10_state.md section 3. Write-only registers and offsets the table does not name read 0 (R27, R35,
R42). -/
def State.regRead (s : State) (off : Nat) : Word :=
  match off with
  | 0x000 => 0x44534531#32
  | 0x004 => hwcfgWord s.hw
  | 0x00C => s.statusWord
  | 0x010 => s.irqEn.setWidth 32
  | 0x014 => s.cause.code.setWidth 32
  | 0x018 => s.cmdcnt
  | 0x01C => BitVec.ofNat 32 (s.cqLevel % 2 ^ 8)
  | 0x020 => s.log2n.setWidth 32
  | 0x030 => wordOfCmd s.faultCmd 0
  | 0x034 => wordOfCmd s.faultCmd 1
  | 0x038 => wordOfCmd s.faultCmd 2
  | 0x03C => wordOfCmd s.faultCmd 3
  | 0x040 => s.cmd0
  | 0x044 => s.cmd1
  | 0x048 => s.cmd2
  | 0x050 => s.ratio
  | 0x054 => s.invRatio
  | 0x058 => s.beta
  | 0x05C => s.mix
  | 0x060 => s.omMix
  | 0x080 => (s.p.get 0).setWidth 32
  | 0x084 => (s.p.get 1).setWidth 32
  | 0x088 => (s.p.get 2).setWidth 32
  | 0x08C => (s.p.get 3).setWidth 32
  | 0x090 => (s.p.get 4).setWidth 32
  | 0x094 => (s.p.get 5).setWidth 32
  | 0x098 => (s.p.get 6).setWidth 32
  | 0x09C => (s.p.get 7).setWidth 32
  | _ => 0#32

end Sys2Proof.Machine
end

