-- ==== Sys2Proof/Machine/Engine.lean ====
section
/-! DEFINITION. The engine's steps, issue and complete (10_state.md R49, R50). -/

namespace Sys2Proof.Machine

/-- Complete (R50): Check's decoding steps give a fault entry (R120, R121), else the decoded command
runs its own complete step. -/
def completeStep (c : Cmd) (s : State) : Out :=
  match decode c with
  | .illegal why => .next (s.faultEntry (causeOf why) c).endCommand
  | .ok i => exec i s

/-- The engine's turn: complete when BUSY = 1 (R50), issue when BUSY = 0, FAULT = 0 and the queue is
not empty (R49); otherwise no step is enabled and every piece of state is kept (R133, R121). -/
def engineStep (s : State) : Out :=
  match s.cur with
  | .some c => completeStep c s
  | .none => if s.faulted then .next s else .next s.issue

end Sys2Proof.Machine
end

