-- ==== Sys2Proof/Machine/HostBus.lean ====
section
/-! DEFINITION. The host's moves (20_memory.md section 4): register and DMEM-window accesses, the push
of a command, the CTRL actions, soft reset, and the reset input. -/

namespace Sys2Proof.Machine

/-! ### The push (R35, R123) -/

/-- A host write of `v` to CMD3 (R35): dropped while FAULT = 1, a CQ_OVERFLOW fault entry on a full
queue (R123), else an append; the staging registers are cleared in every case. -/
def State.push (s : State) (v : Word) : State :=
  let cmd := cmdOfWords s.cmd0 s.cmd1 s.cmd2 v
  let s' :=
    if s.faulted then s
    else if s.cqLevel = s.hw.cqDepth then s.faultEntry .cqOverflow cmd
    else s.enqueue cmd
  s'.clearStaging

/-! ### Resets (R53, R134, R135) -/

/-- The words of an extent with free values (R135): word `a + i` takes draw `n`'s value for it. -/
def freeExtent (n : Nat) (e : Nat × Nat) : Mem → Mem :=
  loop e.2 fun i m => setWord m (e.1 + i) (Config.freeWord n (e.1 + i))

/-- The words of several extents with free values (R135). -/
def freeExtents (n : Nat) : List (Nat × Nat) → Mem → Mem
  | [], m => m
  | e :: es, m => freeExtents n es (freeExtent n e m)

/-- The extents a soft reset leaves unspecified: those the executing command writes, if there is one
and its Check would find no cause (R135). -/
def State.abandonedExtents (s : State) : List (Nat × Nat) :=
  match s.cur with
  | .none => []
  | .some c =>
    match decode c with
    | .illegal _ => []
    | .ok i => if check i s = .none then writtenExtents s.nPoints i else []

/-- The scratch after a reset: unspecified words (R53, R46; log entry 6). -/
def freeScratchOf (n nMax : Nat) : Scratch :=
  ⟨(List.range nMax).map fun i => (Config.freeScratch n i).1,
   (List.range nMax).map fun i => (Config.freeScratch n i).2⟩

/-- Every register, the queue, CUR and the scratch after either reset (R53), with DMEM left to the
caller; what the outside world holds (the turns to come, the last read value) stays. -/
def State.resetRegisters (s : State) (dmem : Mem) : State :=
  { State.powerOn s.hw dmem s.turns with
    scratch := freeScratchOf s.freeCtr s.hw.nMax
    rdata := s.rdata
    freeCtr := s.freeCtr + 1 }

/-- Soft reset, a CTRL write with SRST set (R135): DMEM is kept, but for the words an abandoned
command writes. -/
def State.softReset (s : State) : State :=
  s.resetRegisters (freeExtents s.freeCtr s.abandonedExtents s.mem)

/-- Power-on reset by the reset input (R134): DMEM then holds the content the run takes (R136). -/
def State.resetInput (s : State) (dmem : List Host.Cell) : State :=
  s.resetRegisters (memOfCells s.dmemWords dmem)

/-! ### Register writes (R27 to R29, R35, R42) -/

/-- A host write of `v` to CTRL (R27): SRST alone if set, else CLRFAULT and then ABORT. -/
def State.writeCtrl (s : State) (v : Word) : State :=
  if v.getLsbD 0 then s.softReset
  else
    let s := if v.getLsbD 1 then s.clearFault else s
    if v.getLsbD 2 then s.abort else s

/-- A host write of `v` to STATUS (R28): write 1 to clear DONE (bit 4) and HCOLL (bit 5). -/
def State.writeStatus (s : State) (v : Word) : State :=
  { s with doneBit := s.doneBit && !v.getLsbD 4, hcollBit := s.hcollBit && !v.getLsbD 5 }

/-- A host write of `v` to the register at byte offset `off` (below 0x40000): the table of
10_state.md section 3. Read-only registers and offsets the table does not name ignore it (R42). -/
def State.regWrite (s : State) (off : Nat) (v : Word) : State :=
  match off with
  | 0x008 => s.writeCtrl v
  | 0x00C => s.writeStatus v
  | 0x010 => { s with irqEn := v.setWidth 3 }
  | 0x040 => { s with cmd0 := v }
  | 0x044 => { s with cmd1 := v }
  | 0x048 => { s with cmd2 := v }
  | 0x04C => s.push v
  | _ => s

/-! ### The DMEM window (R60, R61) -/

/-- A host read of DMEM word `i` through the window (R60, R61). -/
def State.windowRead (s : State) (i : Nat) : State :=
  if s.active then { s with rdata := 0#32, hcollBit := true }
  else { s with rdata := if i < s.dmemWords then memWord s.mem i else 0#32 }

/-- A host write of DMEM word `i` through the window (R60, R61). -/
def State.windowWrite (s : State) (i : Nat) (v : Word) : State :=
  if s.active then { s with hcollBit := true }
  else if i < s.dmemWords then s.setMem (setWord s.mem i v) else s

/-! ### A host move -/

/-- The byte offset at which the DMEM window begins (R59). -/
def windowBase : Nat := 0x40000

/-- The size of the region in bytes, 512 KiB (R59). -/
def regionSize : Nat := 0x80000

/-- A host access at `addr`, of `bytes` bytes, with its effect as a function of the byte offset: the
region (R59, R11) and the defined width and alignment (R55). -/
def hostAccess (s : State) (addr bytes : Nat) (effect : Nat → State) : Out :=
  if addr < s.hw.base ∨ s.hw.base + regionSize ≤ addr then .fault .outsideRegion
  else if bytes ≠ 4 ∨ (addr - s.hw.base) % 4 ≠ 0 then .refused .undefinedAccess
  else .next (effect (addr - s.hw.base))

/-- A defined host read at byte offset `off` (R59). -/
def State.readAt (s : State) (off : Nat) : State :=
  if off < windowBase then { s with rdata := s.regRead off } else s.windowRead ((off - windowBase) / 4)

/-- A defined host write at byte offset `off` (R59). -/
def State.writeAt (s : State) (off : Nat) (v : Word) : State :=
  if off < windowBase then s.regWrite off v else s.windowWrite ((off - windowBase) / 4) v

/-- One host move (20_memory.md section 4). -/
def hostStep (mv : HostMove) (s : State) : Out :=
  match mv with
  | .read addr bytes => hostAccess s addr bytes s.readAt
  | .write addr bytes v => hostAccess s addr bytes fun off => s.writeAt off v
  | .assertReset dmem => .next (s.resetInput dmem)
  | .secondMaster => .refused .secondMaster

end Sys2Proof.Machine
end

