-- ==== Sys2Proof/Machine/Step.lean ====
section
/-! DEFINITION. One step of the machine: the next turn, of the engine or of the host (10_state.md R21,
93_implementation_defined.md S17). -/

namespace Sys2Proof.Machine

/-- One step: the first turn of the list, or the engine's when none is listed, so that an enabled
engine step is eventually taken (R145; log entry 2). -/
def step (s : State) : Host.Outcome State Fault Refusal :=
  match s.turns with
  | [] => engineStep s
  | .engine :: ts => engineStep { s with turns := ts }
  | .host mv :: ts => hostStep mv { s with turns := ts }

/-- `s` with the command whose bits are `w` (those at and above `nbits` zero) issued as CUR, and the
engine's turn next: the engine has no other place it takes a command from (R22, R48; log entry 1). -/
def State.withFetchWord (s : State) (nbits w : Nat) : State :=
  { s with cur := some (BitVec.ofNat 128 (w % 2 ^ nbits)), turns := [] }

end Sys2Proof.Machine
end

