-- ==== Sys2Proof/Machine/Asm.lean ====
section
/-! DEFINITION. The assembler (30_encoding.md R82, R83): one line of text to one command.

A line is a mnemonic, then operands separated by commas; blanks around them do not count (log entry
10, DESIGN CHOICE: R82 gives no rule for blanks, letter case, the form of a float literal, or which form
FILL's value is written in). -/

namespace Sys2Proof.Machine

/-! ### Cutting a line -/

/-- Text without its leading blanks. -/
def dropBlanks : List Char → List Char
  | [] => []
  | c :: cs => if c = ' ' then dropBlanks cs else c :: cs

/-- Text without blanks at either end. -/
def trimBlanks (t : List Char) : List Char := (dropBlanks (dropBlanks t).reverse).reverse

/-- Text cut at every occurrence of `sep`. -/
def splitAt (sep : Char) : List Char → List (List Char)
  | [] => [[]]
  | c :: cs =>
    if c = sep then [] :: splitAt sep cs
    else
      match splitAt sep cs with
      | [] => [[c]]
      | w :: ws => (c :: w) :: ws

/-- The first word of a text and the rest. -/
def firstWord : List Char → List Char × List Char
  | [] => ([], [])
  | c :: cs => if c = ' ' then ([], cs) else (c :: (firstWord cs).1, (firstWord cs).2)

/-! ### Numbers (R82) -/

/-- A decimal digit. -/
def decDigit (c : Char) : Option Nat :=
  if '0' ≤ c ∧ c ≤ '9' then some (c.toNat - '0'.toNat) else none

/-- A hexadecimal digit. -/
def hexDigit (c : Char) : Option Nat :=
  if 'a' ≤ c ∧ c ≤ 'f' then some (c.toNat - 'a'.toNat + 10)
  else if 'A' ≤ c ∧ c ≤ 'F' then some (c.toNat - 'A'.toNat + 10)
  else decDigit c

/-- Digits to a number, most significant first; `acc` holds the digits already read. -/
def digitsFrom (base : Nat) (digit : Char → Option Nat) : Nat → List Char → Option Nat
  | acc, [] => some acc
  | acc, c :: cs =>
    match digit c with
    | none => none
    | some d => digitsFrom base digit (acc * base + d) cs

/-- A non-empty run of decimal digits. -/
def decimal : List Char → Option Nat
  | [] => none
  | t => digitsFrom 10 decDigit 0 t

/-- A number, decimal or `0x` hexadecimal (R82). -/
def number : List Char → Option Nat
  | '0' :: 'x' :: c :: cs => digitsFrom 16 hexDigit 0 (c :: cs)
  | t => decimal t

/-- `f32` of the exact decimal value `± num / den` (R82, R17: an exact zero is +0). -/
def f32OfDecimal (neg : Bool) (num den : Nat) : Word :=
  pack (neg && decide (num ≠ 0)) (roundMag (num * 2 ^ 149) den)

/-- A decimal float literal: an optional minus sign, digits, and optionally a point and digits. -/
def floatLiteral (t : List Char) : Option Word :=
  let neg := t.head? = some '-'
  let body := if neg then t.drop 1 else t
  match splitAt '.' body with
  | [w] => (decimal w).map fun n => f32OfDecimal neg n 1
  | [w, f] =>
    match decimal w, decimal f with
    | some n, some k => some (f32OfDecimal neg (n * 10 ^ f.length + k) (10 ^ f.length))
    | _, _ => none
  | _ => none

/-- A 32-bit immediate: a decimal float literal, or `0x` and 8 hexadecimal digits, the raw pattern
(R82). The value of FILL is read so too (log entry 10, DESIGN CHOICE): R73 makes it a raw word and R82 does
not say whether `5` is then 5.0 or the integer 5, or whether `0x10` is a number; here `5` is 5.0 and `0x10`
is no value. -/
def immediate : List Char → Option Word
  | '0' :: 'x' :: t => if t.length = 8 then (digitsFrom 16 hexDigit 0 t).map (BitVec.ofNat 32) else none
  | t => floatLiteral t

/-- A pointer register `Pn` (R82). -/
def pointer : List Char → Option (Fin 8)
  | ['P', c] =>
    match decDigit c with
    | some n => if h : n < 8 then some ⟨n, h⟩ else none
    | none => none
  | _ => none

/-- A circular operand `base/lg@Pn`, as (B, LG, PR) (R82). -/
def circular (t : List Char) : Option (Nat × Nat × Fin 8) :=
  match splitAt '/' t with
  | [b, rest] =>
    match splitAt '@' rest with
    | [lg, pn] =>
      match number b, number lg, pointer pn with
      | some b, some lg, some pr => some (b, lg, pr)
      | _, _, _ => none
    | _ => none
  | _ => none

/-! ### Commands and pseudo-commands -/

/-- A command whose operands are numbers. -/
def withNumbers (ops : List (List Char)) (make : List Nat → Option Instr) : Option Instr :=
  (ops.mapM number).bind make

/-- The command of a mnemonic and its operands, in the order of R82; the pseudo-commands of R83
expand to one command each. FILL's value is read as an `immediate`, like SETPARAM's (log entry 10, DESIGN
CHOICE). -/
def asmOperands (mnemonic : List Char) (ops : List (List Char)) : Option Instr :=
  match String.ofList mnemonic with
  | "NOP" => if ops = [] then some .nop else none
  | "INIT" => withNumbers ops fun | [k] => some (.init k) | _ => none
  | "SETPARAM" =>
    match ops with
    | [k, v] => (number k).bind fun k => (immediate v).map (.setparam k)
    | _ => none
  | "SETP" =>
    match ops with
    | [p, v] => (pointer p).bind fun p => (number v).map (.setp p)
    | _ => none
  | "FILL" =>
    match ops with
    | [a, k, v] => (number a).bind fun a => (number k).bind fun k => (immediate v).map (.fill a k)
    | _ => none
  | "COPY" => withNumbers ops fun | [a, b, k] => some (.copy a b k) | _ => none
  | "FFT_FWD" => withNumbers ops fun | [a, b] => some (.fftFwd a b) | _ => none
  | "FFT_INV" => withNumbers ops fun | [a, b] => some (.fftInv a b) | _ => none
  | "FFTSHIFT" => withNumbers ops fun | [a] => some (.fftshift a) | _ => none
  | "MAG" => withNumbers ops fun | [a, b] => some (.mag a b) | _ => none
  | "PHASE" => withNumbers ops fun | [a, b] => some (.phase a b) | _ => none
  | "POLAR" => withNumbers ops fun | [a, b, c] => some (.polar a b c) | _ => none
  | "PRINCARG" => withNumbers ops fun | [a, b, k] => some (.princarg a b k) | _ => none
  | "PHASEDIFF" => withNumbers ops fun | [a, b, c, k] => some (.phasediff a b c k) | _ => none
  | "PV_UNWRAP" => withNumbers ops fun | [a, b, c, k] => some (.pvUnwrap a b c k) | _ => none
  | "VMUL" => withNumbers ops fun | [a, b, c, k] => some (.vmul a b c k) | _ => none
  | "ZPAD" => withNumbers ops fun | [a, b, k] => some (.zpad a b k) | _ => none
  | "HIST_PUSH" =>
    match ops with
    | [a, r, k] =>
      (number a).bind fun a => (circular r).bind fun r =>
        (number k).map fun k => .histPush r.2.2 r.2.1 k a r.1
    | _ => none
  | "HIST_EXTRACT" =>
    match ops with
    | [r, c, k] =>
      (circular r).bind fun r => (number c).bind fun c =>
        (number k).map fun k => .histExtract r.2.2 r.2.1 k r.1 c
    | _ => none
  | "OLA_ADD" =>
    match ops with
    | [a, r, k, d] =>
      (number a).bind fun a => (circular r).bind fun r => (number k).bind fun k =>
        (number d).map fun d => .olaAdd r.2.2 r.2.1 k a r.1 d
    | _ => none
  | "OLA_DRAIN" =>
    match ops with
    | [r, c, k] =>
      (circular r).bind fun r => (number c).bind fun c =>
        (number k).map fun k => .olaDrain r.2.2 r.2.1 k r.1 c
    | _ => none
  | "OLA_DRAIN_MIX" =>
    match ops with
    | [a, r, c, k] =>
      (number a).bind fun a => (circular r).bind fun r => (number c).bind fun c =>
        (number k).map fun k => .olaDrainMix r.2.2 r.2.1 k a r.1 c
    | _ => none
  | "SPLIT_CARRY" => withNumbers ops fun | [a, b, c, k] => some (.splitCarry a b c k) | _ => none
  | "CMUL" => withNumbers ops fun | [a, b, c] => some (.cmul a b c) | _ => none
  | "CMAT_APPLY" => withNumbers ops fun | [a, b, c] => some (.cmatApply a b c) | _ => none
  | "CMAT_INV" => withNumbers ops fun | [a, b] => some (.cmatInv a b) | _ => none
  | "ZERO" => withNumbers ops fun | [a, k] => some (.fill a k 0#32) | _ => none
  | "SETRATIO" => match ops with | [v] => (immediate v).map (.setparam 0) | _ => none
  | "SETBETA" => match ops with | [v] => (immediate v).map (.setparam 1) | _ => none
  | "SETMIX" => match ops with | [v] => (immediate v).map (.setparam 2) | _ => none
  | "CLRP" => match ops with | [p] => (pointer p).map fun p => .setp p 0 | _ => none
  | "WINDOW" => withNumbers ops fun | [a, w, c, k] => some (.vmul a w c k) | _ => none
  | _ => none

/-- One line of assembler text (R82): the command, if the text is one and every operand fits its
field. -/
def assemble (line : String) : Option Instr :=
  let t := trimBlanks line.toList
  let rest := trimBlanks (firstWord t).2
  let ops := if rest = [] then [] else (splitAt ',' rest).map trimBlanks
  match asmOperands (firstWord t).1 ops with
  | some i => if i.wf then some i else none
  | none => none

end Sys2Proof.Machine
end

