-- ==== Sys2Proof/Safety.lean ====
section
/-! DEFINITION. What statements about the machine are said in: the invariant every step keeps, what is
in range, what a loop of a command leaves in DMEM, what a run that stays clear of the hazards is
(70_reset_and_hazards.md R138 to R142), and the clear form of the transform (40_fft.md R87). -/

namespace Sys2Proof.Machine

/-! ### The invariant -/

/-- DMEM is in canonical form and lists no byte beyond the instance's words (R44). -/
def State.memOk (s : State) : Bool := s.mem.wf && s.mem.within s.dmemWords

/-- The queue holds at most CQ_DEPTH commands (R32, R47), none while FAULT = 1 (R121), and CAUSE is 0
exactly while FAULT = 0 (R30). -/
def State.queueOk (s : State) : Bool :=
  decide (s.queue.length ≤ s.hw.cqDepth) && (!s.faulted || s.queue.isEmpty) &&
  (s.faulted == decide (s.cause ≠ .none))

/-- RATIO is in [0.5, 2.0] and MIX in [0.0, 1.0], INVRATIO and OMMIX are computed from them (R36, R37,
R39, R40). -/
def State.paramsOk (s : State) : Bool :=
  !isNaN s.ratio && !flt s.ratio fHALF && !flt fTWO s.ratio && (s.invRatio == fdiv fONE s.ratio) &&
  !isNaN s.mix && !flt s.mix fZERO && !flt fONE s.mix && (s.omMix == fsub fONE s.mix)

/-- CFG.LOG2N is in [1, LOG2N_MAX] once INIT has completed and reads 0 before (R12, R33). -/
def State.sizeOk (s : State) : Bool :=
  if s.initDone then decide (1 ≤ s.log2n.toNat) && decide (s.log2n.toNat ≤ s.hw.log2nMax)
  else s.log2n == 0#5

/-- The scratch holds NMAX words in each array (R46). -/
def State.scratchOk (s : State) : Bool :=
  (s.scratch.sr.length == s.hw.nMax) && (s.scratch.si.length == s.hw.nMax)

/-- The invariant of the machine. -/
def State.ok (s : State) : Bool :=
  s.hw.legal && s.memOk && s.queueOk && s.paramsOk && s.sizeOk && s.scratchOk

/-! ### Operands -/

/-- R62: an operand extent is in range. -/
abbrev State.fits (s : State) (a len : Nat) : Prop := len = 0 ∨ a + len ≤ s.dmemWords

/-- R120, table 2: the circular buffer's length and the count are legal. -/
abbrev circularLegal (lg cnt : Nat) : Prop := lg ≤ 16 ∧ cnt ≤ 2 ^ lg

/-- Every byte of `m'` outside the words listed is what it was in `m`. -/
def keepsOutside (m m' : Mem) (words : Nat → Prop) : Prop :=
  ∀ x, ¬ words (x / 4) → memByte m' x = memByte m x

/-- `m'` is what `n` passes of a loop make of `m`, in ascending order (R16): pass `j` takes the memory
before it to the memory after it as `pass j` says. -/
def Passes (n : Nat) (pass : Nat → Mem → Mem → Prop) (m m' : Mem) : Prop :=
  ∃ ms : Nat → Mem, ms 0 = m ∧ ms n = m' ∧ ∀ j, j < n → pass j (ms j) (ms (j + 1))

/-- A pass that writes the one word `w`, with the value `v`, and nothing else. -/
def writesOne (w : Nat) (v : Word) (m m' : Mem) : Prop :=
  memWord m' w = v ∧ keepsOutside m m' fun x => x = w

/-- A pass that writes word `w1` with `v1`, then word `w2` with `v2`, and nothing else. -/
def writesTwo (w1 : Nat) (v1 : Word) (w2 : Nat) (v2 : Word) (m m' : Mem) : Prop :=
  memWord m' w2 = v2 ∧ (w1 ≠ w2 → memWord m' w1 = v1) ∧ keepsOutside m m' fun x => x = w1 ∨ x = w2

/-- The command `i` completes from `s` without fault, and beside what every fault-free completion does
(CMDCNT counts it, DONE is set if the queue is empty, BUSY ends: R50, R52) it makes `s` into `t`. -/
def finishes (i : Instr) (s t : State) : Prop :=
  exec i s = .next
    { t with cmdcnt := s.cmdcnt + 1#32, doneBit := s.doneBit || s.queue.isEmpty, cur := none }

/-- The command `i` completes from `s` without fault and changes DMEM to some `m` with `post m`; every
register and every other part of the state is as `finishes` says. -/
def completesWith (i : Instr) (s : State) (post : Mem → Prop) : Prop :=
  ∃ m, finishes i s { s with mem := m } ∧ post m

/-- The same for a circular command, which also moves its pointer register on from the head by `adv`
modulo the buffer's length (R100). -/
def completesMoving (i : Instr) (s : State) (pr : Fin 8) (lg adv : Nat) (post : Mem → Prop) : Prop :=
  ∃ m, finishes i s
      { s with
        mem := m
        p := s.p.set pr.val (BitVec.ofNat 16 (((s.p.get pr).toNat % 2 ^ lg + adv) % 2 ^ lg)) pr.isLt } ∧
    post m

/-- The command `i` faults from `s` with `cause`: nothing of its effect, FaultEntry and the end of
BUSY; a fault already recorded stays the recorded one (R121, R50). -/
def faultsWith (i : Instr) (s : State) (cause : Cause) : Prop :=
  exec i s = .next
    (if s.faulted then { s with queue := [], cur := none }
     else { s with faulted := true, cause := cause, faultCmd := encode i, queue := [], cur := none })

/-! ### Encodings (R72 to R75) -/

/-- A field's place in a command: its low bit and its width (R72). -/
abbrev Place := Nat × Nat

/-- CMD[10:8]. -/
def placePR : Place := (8, 3)
/-- CMD[15:11]. -/
def placeLG : Place := (11, 5)
/-- CMD[31:16]. -/
def placeCNT : Place := (16, 16)
/-- CMD[47:32]. -/
def placeA : Place := (32, 16)
/-- CMD[63:48]. -/
def placeB : Place := (48, 16)
/-- CMD[79:64]. -/
def placeC : Place := (64, 16)
/-- CMD[95:80]. -/
def placeD : Place := (80, 16)
/-- CMD[127:96]. -/
def placeIMM : Place := (96, 32)

/-- The commands whose OPC is `opc` decode to `build` of their fields if every field at the places
`unused` is zero, and are illegal with RESERVED_FIELD if one is not (R74, R75, R80). -/
def encodedAs (opc : Nat) (unused : List Place) (build : Fields → Instr) : Prop :=
  ∀ c : Cmd, c.toNat % 2 ^ 8 = opc →
    ((∀ x ∈ unused, c.toNat / 2 ^ x.1 % 2 ^ x.2 = 0) → decode c = .ok (build (fieldsOf c))) ∧
    ((∃ x ∈ unused, c.toNat / 2 ^ x.1 % 2 ^ x.2 ≠ 0) → decode c = .illegal .reservedField)

/-! ### Rounding (R17) -/

/-- `w` is the real `x` rounded once to binary32, to nearest, ties to even, with overflow to infinity
from 2^128 − 2^103 on, the midpoint above the greatest finite value. -/
def roundsTo (x : ℝ) (w : Word) : Prop :=
  (|x| < 2 ^ 128 - 2 ^ 103 → NearestEven x w) ∧
  (2 ^ 128 - 2 ^ 103 ≤ x → w = 0x7F800000#32) ∧
  (x ≤ -(2 ^ 128 - 2 ^ 103) → w = 0xFF800000#32)

/-! ### Host moves -/

/-- The host's move `mv` takes `s` to `t`, whatever turns follow. -/
def hostMoves (mv : HostMove) (s t : State) : Prop :=
  ∀ ts, step { s with turns := .host mv :: ts } = .next { t with turns := ts }

/-- A host write of `v` at byte offset `off` of the region takes `s` to `t`. -/
def hostWrites (off : Nat) (v : Word) (s t : State) : Prop := hostMoves (.write (s.hw.base + off) 4 v) s t

/-- A host read at byte offset `off` gives `v` back and changes nothing else. -/
def hostReads (off : Nat) (s : State) (v : Word) : Prop :=
  hostMoves (.read (s.hw.base + off) 4) s { s with rdata := v }

/-- The move is a reset: the reset input, or a CTRL write with SRST set (R134, R135). -/
def isReset (s : State) : HostMove → Prop
  | .assertReset _ => True
  | .write addr _ v => addr = s.hw.base + 0x008 ∧ v.getLsbD 0 = true
  | .read _ _ => False
  | .secondMaster => False

/-- It is the engine's turn. -/
def State.engineTurn (s : State) : Prop := s.turns = [] ∨ ∃ ts, s.turns = .engine :: ts

/-- The engine's turn takes `s` to `t`: with no turn listed the step is the engine's (log entry 2), and
a listed engine turn takes itself off the list, whatever turns follow. -/
def engineMoves (s t : State) : Prop :=
  (s.turns = [] → step s = .next t) ∧
  ∀ ts, step { s with turns := .engine :: ts } = .next { t with turns := ts }

/-- Every register, the queue and CUR hold their reset values (R53). -/
def State.atReset (s : State) : Prop :=
  s.initDone = false ∧ s.faulted = false ∧ s.doneBit = false ∧ s.hcollBit = false ∧
  s.irqEn = 0#3 ∧ s.cause = .none ∧ s.cmdcnt = 0#32 ∧ s.queue = [] ∧ s.cur = none ∧
  s.log2n = 0#5 ∧ s.faultCmd = 0#128 ∧ s.cmd0 = 0#32 ∧ s.cmd1 = 0#32 ∧ s.cmd2 = 0#32 ∧
  s.ratio = 0x3F800000#32 ∧ s.invRatio = 0x3F800000#32 ∧ s.beta = 0#32 ∧
  s.mix = 0x3F800000#32 ∧ s.omMix = 0#32 ∧ (∀ r : Fin 8, s.p.get r = 0#16)

/-- Word `w` lies in an extent that a soft reset leaves unspecified: one that the executing command
writes, if its Check would find no cause (R135). -/
def State.abandoned (s : State) (w : Nat) : Prop :=
  ∃ c i, s.cur = some c ∧ decode c = .ok i ∧ check i s = .none ∧
    ∃ e ∈ writtenExtents s.nPoints i, e.1 ≤ w ∧ w < e.1 + e.2

/-! ### The transform in its clear form -/

/-- The radix-2 decimation-in-time transform of `x`, bin `k`: the even and the odd samples are
transformed, and bins `k` and `k + 2^l` are the sum and the difference of the even bin and the odd bin
times the twiddle (R87: "the radix-2 decimation-in-time butterfly the source names"). -/
def ditTransform (log2nMax : Nat) (cj : Bool) : Nat → (Nat → Cplx) → Nat → Cplx
  | 0, x, _ => x 0
  | l + 1, x, k =>
    let even := ditTransform log2nMax cj l fun i => x (2 * i)
    let odd := ditTransform log2nMax cj l fun i => x (2 * i + 1)
    if k < 2 ^ l then cadd (even k) (cmul (twiddle log2nMax (l + 1) cj k) (odd k))
    else csub (even (k - 2 ^ l)) (cmul (twiddle log2nMax (l + 1) cj (k - 2 ^ l)) (odd (k - 2 ^ l)))

/-! ### Runs and hazards -/

/-- The engine has nothing to do: ACTIVE = 0, the host may use DMEM (R61, R67). -/
def State.quiet (s : State) : Bool := !s.active

/-- No fault and no lost host access has been recorded (R138): what a host takes for a good run. -/
def State.unharmed (s : State) : Bool := !s.faulted && !s.hcollBit

/-- R140: it is safe to push. -/
def State.pushSafe (s : State) : Bool := decide (s.cqLevel < s.hw.cqDepth)

/-- R142, 1: before an OLA_ADD of `cnt` samples into a circular accumulator of length `2^lg` with write
head `P[w]` and read head `P[r]`, every slot the grain touches has been drained. -/
def State.drainedFor (s : State) (w r : Fin 8) (lg cnt : Nat) : Bool :=
  decide (((((headOf s w lg : Int) - (headOf s r lg : Int)) % (2 ^ lg : Nat)).toNat) + cnt ≤ 2 ^ lg)

/-- R142, 4: a block short enough for a linear convolution. -/
def State.blockLinear (s : State) (cnt : Nat) : Bool := decide (cnt ≤ s.nPoints / 2)

end Sys2Proof.Machine
end

