-- ==== Sys2Proof/Certificates/Slice0/Obligations.lean ====
section
/-! DEFINITION. The statements about the DSE. -/

section

open Sys2Proof Sys2Proof.Machine

/-! ### Encoding (30_encoding.md) -/

/-- No bit of an encoding is dropped: decoding the encoded command gives it back (R72, R74 to R76, R80). -/
def Obligations.DecodeOfEncode : Prop := ∀ i : Instr, i.wf = true → decode (encode i) = .ok i

/-- Every command word that decodes is the encoding of a well-formed command: no two words decode to
one command (R75, R80). -/
def Obligations.EncodeOfDecode : Prop :=
  ∀ (c : Cmd) (i : Instr), decode c = .ok i → i.wf = true ∧ encode i = c

/-- Every field stands at its fixed position and is read zero-extended (R71, R72, R73), and the words of
the spec's own examples decode to the commands they stand for (R82, R88, R113 to R116). -/
def Obligations.FieldPositions : Prop :=
  (∀ w0 w1 w2 w3 : Word,
    let c := cmdOfWords w0 w1 w2 w3
    let f := fieldsOf c
    opcOf c = (w0.extractLsb' 0 8).toNat ∧ f.pr.val = (w0.extractLsb' 8 3).toNat ∧
    f.lg = (w0.extractLsb' 11 5).toNat ∧ f.cnt = (w0.extractLsb' 16 16).toNat ∧
    f.a = (w1.extractLsb' 0 16).toNat ∧ f.b = (w1.extractLsb' 16 16).toNat ∧
    f.c = (w2.extractLsb' 0 16).toNat ∧ f.d = (w2.extractLsb' 16 16).toNat ∧ f.imm = w3) ∧
  decode (cmdOfWords 0x00000011#32 0x01000000#32 0x00000000#32 0x00000000#32) =
    .ok (.fftFwd 0x0000 0x0100) ∧
  decode (cmdOfWords 0x00080010#32 0#32 0#32 0#32) = .ok (.init 8) ∧
  decode (cmdOfWords 0x00000001#32 0#32 0#32 0x3E99999A#32) = .ok (.setparam 0 0x3E99999A#32) ∧
  decode (cmdOfWords 0x00060302#32 0#32 0#32 0#32) = .ok (.setp 3 6) ∧
  decode (cmdOfWords 0x00040003#32 0x00000200#32 0#32 0#32) = .ok (.fill 0x200 4 0#32) ∧
  decode (cmdOfWords 0#32 0#32 0#32 0#32) = .ok .nop

/-- A reserved OPC faults with ILLEGAL_OPCODE, whatever the other fields hold; the reserved values are
the ones outside the opcode map (R77, R119). The complete step is then the fault entry, and a fault already
recorded stays recorded (R121, R50). That a step with no turn listed is the engine's, and that a listed
engine turn takes itself off the list, is the model's choice (log entry 2). -/
def Obligations.ReservedOpcodesFault : Prop :=
  (∀ op : Nat, op < 2 ^ 8 →
    ((5 ≤ op ∧ op ≤ 0x0F ∨ 0x17 ≤ op ∧ op ≤ 0x1F ∨ 0x23 ≤ op ∧ op ≤ 0x2F ∨ 0x38 ≤ op ∧ op ≤ 0x3F ∨
        0x43 ≤ op) ↔
      op ∉ [0x00, 0x01, 0x02, 0x03, 0x04, 0x10, 0x11, 0x12, 0x13, 0x14, 0x15, 0x16, 0x20, 0x21, 0x22,
        0x30, 0x31, 0x32, 0x33, 0x34, 0x35, 0x36, 0x37, 0x40, 0x41, 0x42])) ∧
  (∀ (c : Cmd) (s : State),
    let op := c.toNat % 2 ^ 8
    (5 ≤ op ∧ op ≤ 0x0F ∨ 0x17 ≤ op ∧ op ≤ 0x1F ∨ 0x23 ≤ op ∧ op ≤ 0x2F ∨ 0x38 ≤ op ∧ op ≤ 0x3F ∨
        0x43 ≤ op) →
    s.cur = some c →
    engineMoves s
      (if s.faulted then { s with queue := [], cur := none }
       else { s with faulted := true, cause := .illegalOpcode, faultCmd := c, queue := [], cur := none }))

/-! ### Steps (10_state.md section 6) -/

/-- A step of the engine with a command in CUR runs the decoded command, or enters the fault of its
encoding; a listed engine turn only takes itself off the list (R50, R80, R120, R121; log entry 2). -/
def Obligations.StepRunsDecoded : Prop :=
  ∀ (s : State) (ts : List Turn) (c : Cmd), s.cur = some c →
    (∀ i, decode c = .ok i →
      (s.turns = [] → step s = exec i s) ∧
      step { s with turns := .engine :: ts } = exec i { s with turns := ts }) ∧
    (∀ why, decode c = .illegal why →
      engineMoves s
        (if s.faulted then { s with queue := [], cur := none }
         else { s with
           faulted := true
           cause := if why = .illegalOpcode then .illegalOpcode else .reservedField
           faultCmd := c, queue := [], cur := none }))

/-- With no command in CUR the engine issues the head of the queue when FAULT = 0, and with FAULT = 1 or
an empty queue it keeps every piece of state; a listed engine turn only takes itself off the list
(R49, R121, R133; log entry 2). -/
def Obligations.IssueOrIdle : Prop :=
  ∀ s : State, s.cur = none →
    (∀ c q, s.faulted = false → s.queue = c :: q → engineMoves s { s with cur := some c, queue := q }) ∧
    (s.faulted = true → engineMoves s s) ∧ (s.queue = [] → engineMoves s s)

/-! ### Control commands (44_control.md) -/

/-- NOP (R113). -/
def Obligations.NopResult : Prop :=
  (∀ c : Cmd, c.toNat % 2 ^ 8 = 0 →
    (c = 0#128 → decode c = .ok .nop) ∧ (c ≠ 0#128 → decode c = .illegal .reservedField)) ∧
  ∀ s : State, finishes .nop s s

/-- SETPARAM (R114). -/
def Obligations.SetparamResult : Prop :=
  encodedAs 0x01 [placePR, placeLG, placeA, placeB, placeC, placeD] (fun f => .setparam f.cnt f.imm) ∧
  ∀ (s : State) (v : Word),
    (∀ r, r = (if isNaN v then 0x3F800000#32 else if flt v 0x3F000000#32 then 0x3F000000#32
        else if flt 0x40000000#32 v then 0x40000000#32 else v) →
      finishes (.setparam 0 v) s { s with ratio := r, invRatio := fdiv 0x3F800000#32 r }) ∧
    finishes (.setparam 1 v) s { s with beta := v } ∧
    (∀ x, x = (if isNaN v then 0x3F800000#32 else if flt v 0x00000000#32 then 0x00000000#32
        else if flt 0x3F800000#32 v then 0x3F800000#32 else v) →
      finishes (.setparam 2 v) s { s with mix := x, omMix := fsub 0x3F800000#32 x }) ∧
    (∀ id, 2 < id → faultsWith (.setparam id v) s .fieldRange)

/-- SETP, and that nothing but SETP, the four circular commands that move a head, and reset changes a
pointer register (R115). -/
def Obligations.SetpResult : Prop :=
  encodedAs 0x02 [placeLG, placeA, placeB, placeC, placeD, placeIMM] (fun f => .setp f.pr f.cnt) ∧
  (∀ (s : State) (pr : Fin 8) (cnt : Nat), cnt < 2 ^ 16 → ∃ p,
    finishes (.setp pr cnt) s { s with p := p } ∧ (p.get pr).toNat = cnt ∧
    ∀ q, q ≠ pr → p.get q = s.p.get q) ∧
  (∀ s t : State, step s = .next t → t.p ≠ s.p →
    (∃ mv ts, s.turns = .host mv :: ts ∧ isReset s mv) ∨
    (s.engineTurn ∧ ∃ c i, s.cur = some c ∧ decode c = .ok i ∧
      ((∃ pr k, i = .setp pr k) ∨ (∃ pr lg k a b, i = .histPush pr lg k a b) ∨
       (∃ pr lg k a b d, i = .olaAdd pr lg k a b d) ∨ (∃ pr lg k b c', i = .olaDrain pr lg k b c') ∨
       (∃ pr lg k a b c', i = .olaDrainMix pr lg k a b c'))))

/-- FILL (R116). -/
def Obligations.FillResult : Prop :=
  encodedAs 0x03 [placePR, placeLG, placeB, placeC, placeD] (fun f => .fill f.a f.cnt f.imm) ∧
  ∀ (s : State) (a cnt : Nat) (imm : Word),
    (s.fits a cnt → completesWith (.fill a cnt imm) s fun m =>
      (∀ i, i < cnt → memWord m (a + i) = imm) ∧ keepsOutside s.mem m fun w => a ≤ w ∧ w < a + cnt) ∧
    (¬ s.fits a cnt → faultsWith (.fill a cnt imm) s .addrRange)

/-- COPY, ascending, with the result of every overlap (R117). -/
def Obligations.CopyResult : Prop :=
  encodedAs 0x04 [placePR, placeLG, placeC, placeD, placeIMM] (fun f => .copy f.a f.b f.cnt) ∧
  ∀ (s : State) (a b cnt : Nat),
    (s.fits a cnt ∧ s.fits b cnt → completesWith (.copy a b cnt) s fun m =>
      Passes cnt (fun i m m' => writesOne (b + i) (memWord m (a + i)) m m') s.mem m ∧
      (∀ i, i < cnt → memWord m (b + i) =
        memWord s.mem (a + if a < b ∧ b < a + cnt then i % (b - a) else i)) ∧
      keepsOutside s.mem m fun w => b ≤ w ∧ w < b + cnt) ∧
    (¬ (s.fits a cnt ∧ s.fits b cnt) → faultsWith (.copy a b cnt) s .addrRange)

/-! ### FFT engine (40_fft.md) -/

/-- INIT (R88). -/
def Obligations.InitResult : Prop :=
  encodedAs 0x10 [placePR, placeLG, placeA, placeB, placeC, placeD, placeIMM] (fun f => .init f.cnt) ∧
  ∀ (s : State) (cnt : Nat), s.hw.legal = true →
    (1 ≤ cnt ∧ cnt ≤ s.hw.log2nMax → ∃ l, finishes (.init cnt) s { s with log2n := l, initDone := true } ∧
      l.toNat = cnt) ∧
    (cnt < 1 ∨ s.hw.log2nMax < cnt → faultsWith (.init cnt) s .fieldRange)

/-- FFT_FWD: bin `k` of the Z-buffer at B is bin `k` of the decimation-in-time transform of the N real
words at A, whatever the scratch held and however A and B overlap (R84 to R87, R89, R46). -/
def Obligations.FftFwdResult : Prop :=
  encodedAs 0x11 [placePR, placeLG, placeCNT, placeC, placeD, placeIMM] (fun f => .fftFwd f.a f.b) ∧
  ∀ (s : State) (a b : Nat),
    let n := 2 ^ s.log2n.toNat
    let bin := ditTransform s.hw.log2nMax false s.log2n.toNat fun i => ⟨memWord s.mem (a + i), 0#32⟩
    (s.ok = true ∧ s.initDone = true ∧ s.fits a n ∧ s.fits b (2 * n) → ∃ m x,
      finishes (.fftFwd a b) s { s with mem := m, scratch := x } ∧
      (∀ k, k < n → memWord m (b + k) = (bin k).re ∧ memWord m (b + n + k) = (bin k).im) ∧
      keepsOutside s.mem m fun w => b ≤ w ∧ w < b + 2 * n) ∧
    (s.initDone = false → faultsWith (.fftFwd a b) s .notInit) ∧
    (s.initDone = true ∧ ¬ (s.fits a n ∧ s.fits b (2 * n)) → faultsWith (.fftFwd a b) s .addrRange)

/-- FFT_INV: word `k` at B is the real part of bin `k` of the transform with conjugated twiddles of the
Z-buffer at A, divided once by N (R84 to R87, R90, R46). -/
def Obligations.FftInvResult : Prop :=
  encodedAs 0x12 [placePR, placeLG, placeCNT, placeC, placeD, placeIMM] (fun f => .fftInv f.a f.b) ∧
  ∀ (s : State) (a b : Nat),
    let n := 2 ^ s.log2n.toNat
    let bin := ditTransform s.hw.log2nMax true s.log2n.toNat fun i =>
      ⟨memWord s.mem (a + i), memWord s.mem (a + n + i)⟩
    (s.ok = true ∧ s.initDone = true ∧ s.fits a (2 * n) ∧ s.fits b n → ∃ m x nf,
      finishes (.fftInv a b) s { s with mem := m, scratch := x } ∧
      isFin nf = true ∧ valueOf nf = (n : ℚ) ∧
      (∀ k, k < n → memWord m (b + k) = fdiv (bin k).re nf) ∧
      keepsOutside s.mem m fun w => b ≤ w ∧ w < b + n) ∧
    (s.initDone = false → faultsWith (.fftInv a b) s .notInit) ∧
    (s.initDone = true ∧ ¬ (s.fits a (2 * n) ∧ s.fits b n) → faultsWith (.fftInv a b) s .addrRange)

/-- FFTSHIFT: the two halves of the buffer change places (R91). -/
def Obligations.FftshiftResult : Prop :=
  encodedAs 0x13 [placePR, placeLG, placeCNT, placeB, placeC, placeD, placeIMM] (fun f => .fftshift f.a) ∧
  ∀ (s : State) (a : Nat),
    let n := 2 ^ s.log2n.toNat
    (s.ok = true ∧ s.initDone = true ∧ s.fits a n → completesWith (.fftshift a) s fun m =>
      (∀ i, i < n / 2 → memWord m (a + i) = memWord s.mem (a + n / 2 + i) ∧
        memWord m (a + n / 2 + i) = memWord s.mem (a + i)) ∧
      keepsOutside s.mem m fun w => a ≤ w ∧ w < a + n) ∧
    (s.initDone = false → faultsWith (.fftshift a) s .notInit) ∧
    (s.initDone = true ∧ ¬ s.fits a n → faultsWith (.fftshift a) s .addrRange)

/-- MAG (R92). -/
def Obligations.MagResult : Prop :=
  encodedAs 0x14 [placePR, placeLG, placeCNT, placeC, placeD, placeIMM] (fun f => .mag f.a f.b) ∧
  ∀ (s : State) (a b : Nat),
    let n := 2 ^ s.log2n.toNat
    (s.initDone = true ∧ s.fits a (2 * n) ∧ s.fits b n → completesWith (.mag a b) s fun m =>
      Passes n (fun k m m' =>
        let re := memWord m (a + k)
        let im := memWord m (a + n + k)
        writesOne (b + k) (fsqrt (fadd (fmul re re) (fmul im im))) m m') s.mem m) ∧
    (s.initDone = false → faultsWith (.mag a b) s .notInit) ∧
    (s.initDone = true ∧ ¬ (s.fits a (2 * n) ∧ s.fits b n) → faultsWith (.mag a b) s .addrRange)

/-- PHASE (R93). -/
def Obligations.PhaseResult : Prop :=
  encodedAs 0x15 [placePR, placeLG, placeCNT, placeC, placeD, placeIMM] (fun f => .phase f.a f.b) ∧
  ∀ (s : State) (a b : Nat),
    let n := 2 ^ s.log2n.toNat
    (s.initDone = true ∧ s.fits a (2 * n) ∧ s.fits b n → completesWith (.phase a b) s fun m =>
      Passes n (fun k m m' =>
        writesOne (b + k) (atan2F32 (memWord m (a + n + k)) (memWord m (a + k))) m m') s.mem m) ∧
    (s.initDone = false → faultsWith (.phase a b) s .notInit) ∧
    (s.initDone = true ∧ ¬ (s.fits a (2 * n) ∧ s.fits b n) → faultsWith (.phase a b) s .addrRange)

/-- POLAR (R94). -/
def Obligations.PolarResult : Prop :=
  encodedAs 0x16 [placePR, placeLG, placeCNT, placeD, placeIMM] (fun f => .polar f.a f.b f.c) ∧
  ∀ (s : State) (a b c : Nat),
    let n := 2 ^ s.log2n.toNat
    (s.initDone = true ∧ s.fits a n ∧ s.fits b n ∧ s.fits c (2 * n) →
      completesWith (.polar a b c) s fun m =>
        Passes n (fun k m m' =>
          let mag := memWord m (a + k)
          let ph := memWord m (b + k)
          writesTwo (c + k) (fmul mag (cos32 ph)) (c + n + k) (fmul mag (sin32 ph)) m m') s.mem m) ∧
    (s.initDone = false → faultsWith (.polar a b c) s .notInit) ∧
    (s.initDone = true ∧ ¬ (s.fits a n ∧ s.fits b n ∧ s.fits c (2 * n)) →
      faultsWith (.polar a b c) s .addrRange)

/-! ### Phase unit (41_phase.md) -/

/-- PRINCARG (R97). -/
def Obligations.PrincargResult : Prop :=
  encodedAs 0x20 [placePR, placeLG, placeC, placeD, placeIMM] (fun f => .princarg f.a f.b f.cnt) ∧
  ∀ (s : State) (a b cnt : Nat),
    (s.fits a cnt ∧ s.fits b cnt → completesWith (.princarg a b cnt) s fun m =>
      Passes cnt (fun i m m' => writesOne (b + i) (princarg (memWord m (a + i))) m m') s.mem m) ∧
    (¬ (s.fits a cnt ∧ s.fits b cnt) → faultsWith (.princarg a b cnt) s .addrRange)

/-- PHASEDIFF (R98). -/
def Obligations.PhasediffResult : Prop :=
  encodedAs 0x21 [placePR, placeLG, placeD, placeIMM] (fun f => .phasediff f.a f.b f.c f.cnt) ∧
  ∀ (s : State) (a b c cnt : Nat),
    (s.fits a cnt ∧ s.fits b cnt ∧ s.fits c cnt → completesWith (.phasediff a b c cnt) s fun m =>
      Passes cnt (fun i m m' =>
        writesOne (c + i) (princarg (fsub (memWord m (a + i)) (memWord m (b + i)))) m m') s.mem m) ∧
    (¬ (s.fits a cnt ∧ s.fits b cnt ∧ s.fits c cnt) → faultsWith (.phasediff a b c cnt) s .addrRange)

/-- PV_UNWRAP (R99). -/
def Obligations.PvUnwrapResult : Prop :=
  encodedAs 0x22 [placePR, placeLG, placeD, placeIMM] (fun f => .pvUnwrap f.a f.b f.c f.cnt) ∧
  ∀ (s : State) (a b c hop : Nat),
    let n := 2 ^ s.log2n.toNat
    (s.initDone = true ∧ s.fits a n ∧ s.fits b n ∧ s.fits c n →
      completesWith (.pvUnwrap a b c hop) s fun m =>
        Passes n (fun k m m' =>
          let ph := memWord m (a + k)
          let om := omega n k hop
          let dev := princarg (fsub (fsub ph (memWord m (b + k))) om)
          let dphi := fadd om dev
          writesTwo (b + k) ph
            (c + k) (princarg (fadd (memWord m (c + k)) (fmul dphi s.invRatio))) m m') s.mem m) ∧
    (s.initDone = false → faultsWith (.pvUnwrap a b c hop) s .notInit) ∧
    (s.initDone = true ∧ ¬ (s.fits a n ∧ s.fits b n ∧ s.fits c n) →
      faultsWith (.pvUnwrap a b c hop) s .addrRange)

/-! ### Frame processor (42_frame.md) -/

/-- VMUL (R101). -/
def Obligations.VmulResult : Prop :=
  encodedAs 0x30 [placePR, placeLG, placeD, placeIMM] (fun f => .vmul f.a f.b f.c f.cnt) ∧
  ∀ (s : State) (a b c cnt : Nat),
    (s.fits a cnt ∧ s.fits b cnt ∧ s.fits c cnt → completesWith (.vmul a b c cnt) s fun m =>
      Passes cnt (fun i m m' =>
        writesOne (c + i) (fmul (memWord m (a + i)) (memWord m (b + i))) m m') s.mem m) ∧
    (¬ (s.fits a cnt ∧ s.fits b cnt ∧ s.fits c cnt) → faultsWith (.vmul a b c cnt) s .addrRange)

/-- ZPAD (R102). -/
def Obligations.ZpadResult : Prop :=
  encodedAs 0x31 [placePR, placeLG, placeC, placeD, placeIMM] (fun f => .zpad f.a f.b f.cnt) ∧
  ∀ (s : State) (a b cnt : Nat),
    let n := 2 ^ s.log2n.toNat
    (s.initDone = true ∧ cnt ≤ n ∧ s.fits a cnt ∧ s.fits b n → completesWith (.zpad a b cnt) s fun m =>
      Passes n (fun i m m' =>
        writesOne (b + i) (if i < cnt then memWord m (a + i) else 0#32) m m') s.mem m) ∧
    (s.initDone = false → faultsWith (.zpad a b cnt) s .notInit) ∧
    (s.initDone = true ∧ n < cnt → faultsWith (.zpad a b cnt) s .fieldRange) ∧
    (s.initDone = true ∧ cnt ≤ n ∧ ¬ (s.fits a cnt ∧ s.fits b n) →
      faultsWith (.zpad a b cnt) s .addrRange)

/-- HIST_PUSH (R103). -/
def Obligations.HistPushResult : Prop :=
  encodedAs 0x32 [placeC, placeD, placeIMM] (fun f => .histPush f.pr f.lg f.cnt f.a f.b) ∧
  ∀ (s : State) (pr : Fin 8) (lg cnt a b : Nat),
    let h := (s.p.get pr).toNat % 2 ^ lg
    (circularLegal lg cnt ∧ s.fits a cnt ∧ s.fits b (2 ^ lg) →
      completesMoving (.histPush pr lg cnt a b) s pr lg cnt fun m =>
        Passes cnt (fun i m m' =>
          writesOne (b + (h + i) % 2 ^ lg) (memWord m (a + i)) m m') s.mem m) ∧
    (¬ circularLegal lg cnt → faultsWith (.histPush pr lg cnt a b) s .fieldRange) ∧
    (circularLegal lg cnt ∧ ¬ (s.fits a cnt ∧ s.fits b (2 ^ lg)) →
      faultsWith (.histPush pr lg cnt a b) s .addrRange)

/-- HIST_EXTRACT: the slot read for word `i` is the one CNT − i places before the head (R104). -/
def Obligations.HistExtractResult : Prop :=
  encodedAs 0x33 [placeA, placeD, placeIMM] (fun f => .histExtract f.pr f.lg f.cnt f.b f.c) ∧
  ∀ (s : State) (pr : Fin 8) (lg cnt b c : Nat),
    let h := (s.p.get pr).toNat % 2 ^ lg
    (circularLegal lg cnt ∧ s.fits b (2 ^ lg) ∧ s.fits c cnt →
      completesWith (.histExtract pr lg cnt b c) s fun m =>
        Passes cnt (fun i m m' =>
          writesOne (c + i) (memWord m (b + (h + (2 ^ lg - cnt) + i) % 2 ^ lg)) m m') s.mem m) ∧
    (¬ circularLegal lg cnt → faultsWith (.histExtract pr lg cnt b c) s .fieldRange) ∧
    (circularLegal lg cnt ∧ ¬ (s.fits b (2 ^ lg) ∧ s.fits c cnt) →
      faultsWith (.histExtract pr lg cnt b c) s .addrRange)

/-- OLA_ADD (R105). -/
def Obligations.OlaAddResult : Prop :=
  encodedAs 0x34 [placeC, placeIMM] (fun f => .olaAdd f.pr f.lg f.cnt f.a f.b f.d) ∧
  ∀ (s : State) (pr : Fin 8) (lg cnt a b d : Nat),
    let h := (s.p.get pr).toNat % 2 ^ lg
    (circularLegal lg cnt ∧ s.fits a cnt ∧ s.fits b (2 ^ lg) →
      completesMoving (.olaAdd pr lg cnt a b d) s pr lg d fun m =>
        Passes cnt (fun i m m' =>
          let slot := b + (h + i) % 2 ^ lg
          writesOne slot (fadd (memWord m slot) (memWord m (a + i))) m m') s.mem m) ∧
    (¬ circularLegal lg cnt → faultsWith (.olaAdd pr lg cnt a b d) s .fieldRange) ∧
    (circularLegal lg cnt ∧ ¬ (s.fits a cnt ∧ s.fits b (2 ^ lg)) →
      faultsWith (.olaAdd pr lg cnt a b d) s .addrRange)

/-- OLA_DRAIN (R106). -/
def Obligations.OlaDrainResult : Prop :=
  encodedAs 0x35 [placeA, placeD, placeIMM] (fun f => .olaDrain f.pr f.lg f.cnt f.b f.c) ∧
  ∀ (s : State) (pr : Fin 8) (lg cnt b c : Nat),
    let h := (s.p.get pr).toNat % 2 ^ lg
    (circularLegal lg cnt ∧ s.fits b (2 ^ lg) ∧ s.fits c cnt →
      completesMoving (.olaDrain pr lg cnt b c) s pr lg cnt fun m =>
        Passes cnt (fun i m m' =>
          let slot := b + (h + i) % 2 ^ lg
          writesTwo slot 0#32 (c + i) (memWord m slot) m m') s.mem m) ∧
    (¬ circularLegal lg cnt → faultsWith (.olaDrain pr lg cnt b c) s .fieldRange) ∧
    (circularLegal lg cnt ∧ ¬ (s.fits b (2 ^ lg) ∧ s.fits c cnt) →
      faultsWith (.olaDrain pr lg cnt b c) s .addrRange)

/-- OLA_DRAIN_MIX (R107). -/
def Obligations.OlaDrainMixResult : Prop :=
  encodedAs 0x36 [placeD, placeIMM] (fun f => .olaDrainMix f.pr f.lg f.cnt f.a f.b f.c) ∧
  ∀ (s : State) (pr : Fin 8) (lg cnt a b c : Nat),
    let h := (s.p.get pr).toNat % 2 ^ lg
    (circularLegal lg cnt ∧ s.fits a cnt ∧ s.fits b (2 ^ lg) ∧ s.fits c cnt →
      completesMoving (.olaDrainMix pr lg cnt a b c) s pr lg cnt fun m =>
        Passes cnt (fun i m m' =>
          let slot := b + (h + i) % 2 ^ lg
          let wet := memWord m slot
          let dry := memWord m (a + i)
          writesTwo slot 0#32 (c + i) (fadd (fmul dry s.omMix) (fmul wet s.mix)) m m') s.mem m) ∧
    (¬ circularLegal lg cnt → faultsWith (.olaDrainMix pr lg cnt a b c) s .fieldRange) ∧
    (circularLegal lg cnt ∧ ¬ (s.fits a cnt ∧ s.fits b (2 ^ lg) ∧ s.fits c cnt) →
      faultsWith (.olaDrainMix pr lg cnt a b c) s .addrRange)

/-- SPLIT_CARRY (R108). -/
def Obligations.SplitCarryResult : Prop :=
  encodedAs 0x37 [placePR, placeLG, placeD, placeIMM] (fun f => .splitCarry f.a f.b f.c f.cnt) ∧
  ∀ (s : State) (a b c cnt : Nat),
    (s.fits a (2 * cnt) ∧ s.fits b cnt ∧ s.fits c cnt → completesWith (.splitCarry a b c cnt) s fun m =>
      Passes cnt (fun i m m' =>
        writesTwo (c + i) (fadd (memWord m (a + i)) (memWord m (b + i)))
          (b + i) (memWord m (a + cnt + i)) m m') s.mem m) ∧
    (¬ (s.fits a (2 * cnt) ∧ s.fits b cnt ∧ s.fits c cnt) →
      faultsWith (.splitCarry a b c cnt) s .addrRange)

/-! ### Spectral multiplier (43_spectral_multiplier.md) -/

/-- CMUL (R110), and that exchanging the operands gives the same result bit for bit, which is the spec's
own inference: R110 marks it "derived: from 00_scope.md rule R19". -/
def Obligations.CmulResult : Prop :=
  encodedAs 0x40 [placePR, placeLG, placeCNT, placeD, placeIMM] (fun f => .cmul f.a f.b f.c) ∧
  (∀ (s : State) (a b c : Nat),
    let n := 2 ^ s.log2n.toNat
    (s.initDone = true ∧ s.fits a (2 * n) ∧ s.fits b (2 * n) ∧ s.fits c (2 * n) →
      (completesWith (.cmul a b c) s fun m =>
        Passes n (fun k m m' =>
          let xr := memWord m (a + k)
          let xi := memWord m (a + n + k)
          let yr := memWord m (b + k)
          let yi := memWord m (b + n + k)
          writesTwo (c + k) (fsub (fmul xr yr) (fmul xi yi))
            (c + n + k) (fadd (fmul xr yi) (fmul xi yr)) m m') s.mem m) ∧
      exec (.cmul a b c) s = exec (.cmul b a c) s) ∧
    (s.initDone = false → faultsWith (.cmul a b c) s .notInit) ∧
    (s.initDone = true ∧ ¬ (s.fits a (2 * n) ∧ s.fits b (2 * n) ∧ s.fits c (2 * n)) →
      faultsWith (.cmul a b c) s .addrRange))

/-- CMAT_APPLY: a bin's six inputs are read before its four output words are written (R111). -/
def Obligations.CmatApplyResult : Prop :=
  encodedAs 0x41 [placePR, placeLG, placeCNT, placeD, placeIMM] (fun f => .cmatApply f.a f.b f.c) ∧
  ∀ (s : State) (a b c : Nat),
    let n := 2 ^ s.log2n.toNat
    (s.initDone = true ∧ s.fits a (8 * n) ∧ s.fits b (4 * n) ∧ s.fits c (4 * n) →
      completesWith (.cmatApply a b c) s fun m =>
        Passes n (fun k m m' =>
          let h11 : Cplx := ⟨memWord m (a + k), memWord m (a + n + k)⟩
          let h12 : Cplx := ⟨memWord m (a + 2 * n + k), memWord m (a + 3 * n + k)⟩
          let h21 : Cplx := ⟨memWord m (a + 4 * n + k), memWord m (a + 5 * n + k)⟩
          let h22 : Cplx := ⟨memWord m (a + 6 * n + k), memWord m (a + 7 * n + k)⟩
          let xl : Cplx := ⟨memWord m (b + k), memWord m (b + n + k)⟩
          let xr : Cplx := ⟨memWord m (b + 2 * n + k), memWord m (b + 3 * n + k)⟩
          let yl := cadd (cmul h11 xl) (cmul h12 xr)
          let yr := cadd (cmul h21 xl) (cmul h22 xr)
          memWord m' (c + k) = yl.re ∧ memWord m' (c + n + k) = yl.im ∧
          memWord m' (c + 2 * n + k) = yr.re ∧ memWord m' (c + 3 * n + k) = yr.im ∧
          keepsOutside m m' fun w =>
            w = c + k ∨ w = c + n + k ∨ w = c + 2 * n + k ∨ w = c + 3 * n + k) s.mem m) ∧
    (s.initDone = false → faultsWith (.cmatApply a b c) s .notInit) ∧
    (s.initDone = true ∧ ¬ (s.fits a (8 * n) ∧ s.fits b (4 * n) ∧ s.fits c (4 * n)) →
      faultsWith (.cmatApply a b c) s .addrRange)

/-- CMAT_INV, every operation in the grouping of the rule (R112). -/
def Obligations.CmatInvResult : Prop :=
  encodedAs 0x42 [placePR, placeLG, placeCNT, placeC, placeD, placeIMM] (fun f => .cmatInv f.a f.b) ∧
  ∀ (s : State) (a b : Nat),
    let n := 2 ^ s.log2n.toNat
    (s.initDone = true ∧ s.fits a (8 * n) ∧ s.fits b (8 * n) →
      completesWith (.cmatInv a b) s fun m =>
        Passes n (fun k m m' =>
          let c11 : Cplx := ⟨memWord m (a + k), memWord m (a + n + k)⟩
          let c12 : Cplx := ⟨memWord m (a + 2 * n + k), memWord m (a + 3 * n + k)⟩
          let c21 : Cplx := ⟨memWord m (a + 4 * n + k), memWord m (a + 5 * n + k)⟩
          let c22 : Cplx := ⟨memWord m (a + 6 * n + k), memWord m (a + 7 * n + k)⟩
          let bt : Cplx := ⟨s.beta, 0#32⟩
          let g11 := cadd (cadd (cmul (cconj c11) c11) (cmul (cconj c21) c21)) bt
          let g12 := cadd (cmul (cconj c11) c12) (cmul (cconj c21) c22)
          let g21 := cadd (cmul (cconj c12) c11) (cmul (cconj c22) c21)
          let g22 := cadd (cadd (cmul (cconj c12) c12) (cmul (cconj c22) c22)) bt
          let det := csub (cmul g11 g22) (cmul g12 g21)
          let sq := fadd (fmul det.re det.re) (fmul det.im det.im)
          let d2 := if flt sq 0x2EDBE6FF#32 then 0x2EDBE6FF#32 else sq
          let inv : Cplx := ⟨fdiv det.re d2, fdiv (fneg det.im) d2⟩
          let i11 := cmul g22 inv
          let i12 := cmul (cneg g12) inv
          let i21 := cmul (cneg g21) inv
          let i22 := cmul g11 inv
          let h11 := cadd (cmul i11 (cconj c11)) (cmul i12 (cconj c12))
          let h12 := cadd (cmul i11 (cconj c21)) (cmul i12 (cconj c22))
          let h21 := cadd (cmul i21 (cconj c11)) (cmul i22 (cconj c12))
          let h22 := cadd (cmul i21 (cconj c21)) (cmul i22 (cconj c22))
          memWord m' (b + k) = h11.re ∧ memWord m' (b + n + k) = h11.im ∧
          memWord m' (b + 2 * n + k) = h12.re ∧ memWord m' (b + 3 * n + k) = h12.im ∧
          memWord m' (b + 4 * n + k) = h21.re ∧ memWord m' (b + 5 * n + k) = h21.im ∧
          memWord m' (b + 6 * n + k) = h22.re ∧ memWord m' (b + 7 * n + k) = h22.im ∧
          keepsOutside m m' fun w => ∃ j, j < 8 ∧ w = b + j * n + k) s.mem m) ∧
    (s.initDone = false → faultsWith (.cmatInv a b) s .notInit) ∧
    (s.initDone = true ∧ ¬ (s.fits a (8 * n) ∧ s.fits b (8 * n)) → faultsWith (.cmatInv a b) s .addrRange)

/-! ### Arithmetic (00_scope.md R10, R17; 40_fft.md R84 to R87; 41_phase.md R95, R96) -/

/-- `add` and `sub` of finite operands are the exact sum and difference rounded once; an exact zero sum
is −0 only of −0 and −0, and an exact zero difference only of −0 and +0 (R17). -/
def Obligations.AddSubRounded : Prop :=
  ∀ a b : Word, isFin a = true → isFin b = true →
    roundsTo ((valueOf a : ℝ) + valueOf b) (fadd a b) ∧
    roundsTo ((valueOf a : ℝ) - valueOf b) (fsub a b) ∧
    (valueOf a + valueOf b = 0 →
      fadd a b = if signBit a = true ∧ signBit b = true then 0x80000000#32 else 0x00000000#32) ∧
    (valueOf a - valueOf b = 0 →
      fsub a b = if signBit a = true ∧ signBit b = false then 0x80000000#32 else 0x00000000#32)

/-- `mul` and `div` of finite operands are the exact product and quotient rounded once, with the sign of
the operands' signs, zero results included (R17). -/
def Obligations.MulDivRounded : Prop :=
  ∀ a b : Word, isFin a = true → isFin b = true →
    roundsTo ((valueOf a : ℝ) * valueOf b) (fmul a b) ∧
    signBit (fmul a b) = (signBit a != signBit b) ∧
    (valueOf b ≠ 0 →
      roundsTo ((valueOf a : ℝ) / valueOf b) (fdiv a b) ∧
      signBit (fdiv a b) = (signBit a != signBit b))

/-- `sqrt` is correctly rounded on finite non-negative operands, keeps −0, and is the canonical NaN of a
negative non-zero operand (R17). -/
def Obligations.SqrtRounded : Prop :=
  ∀ a : Word, isFin a = true →
    (0 ≤ valueOf a → roundsTo (Real.sqrt (valueOf a : ℝ)) (fsqrt a)) ∧
    (valueOf a = 0 → fsqrt a = a) ∧ (valueOf a < 0 → fsqrt a = 0x7FC00000#32)

/-- `floor` is exact, `lt` compares values, and `neg` negates, by flipping bit 31 of any word and nothing
else, NaN included (R17). -/
def Obligations.FloorLtNeg : Prop :=
  (∀ a b : Word, isFin a = true → isFin b = true →
    isFin (ffloor a) = true ∧ valueOf (ffloor a) = ((⌊valueOf a⌋ : ℤ) : ℚ) ∧
    signBit (ffloor a) = signBit a ∧
    (flt a b = true ↔ valueOf a < valueOf b) ∧ valueOf (fneg a) = -valueOf a) ∧
  (∀ (a : Word) (k : Nat), k < 32 →
    (fneg a).getLsbD k = if k = 31 then !a.getLsbD k else a.getLsbD k)

/-- The operands that are no finite numbers, and division by a zero: NaN results are canonical, the
invalid cases give NaN, and infinities of either sign in either place behave as IEEE 754 says (R17). -/
def Obligations.SpecialOperands : Prop :=
  (∀ a b : Word, isNaN a = true ∨ isNaN b = true →
    fadd a b = 0x7FC00000#32 ∧ fsub a b = 0x7FC00000#32 ∧ fmul a b = 0x7FC00000#32 ∧
    fdiv a b = 0x7FC00000#32 ∧ flt a b = false) ∧
  (∀ a : Word, isNaN a = true → fsqrt a = 0x7FC00000#32) ∧
  (∀ a : Word, isFin a = true → ∀ c ∈ [0x7F800000#32, 0xFF800000#32],
    let product := if valueOf a = 0 then 0x7FC00000#32
      else if signBit a = signBit c then 0x7F800000#32 else 0xFF800000#32
    fadd a c = c ∧ fadd c a = c ∧
    fsub a c = (if c = 0x7F800000#32 then 0xFF800000#32 else 0x7F800000#32) ∧ fsub c a = c ∧
    fmul a c = product ∧ fmul c a = product ∧
    fdiv a c = (if signBit a = signBit c then 0x00000000#32 else 0x80000000#32) ∧
    fdiv c a = (if signBit a = signBit c then 0x7F800000#32 else 0xFF800000#32) ∧
    flt a c = decide (c = 0x7F800000#32) ∧ flt c a = decide (c = 0xFF800000#32)) ∧
  (∀ a : Word, isFin a = true → ∀ z ∈ [0x00000000#32, 0x80000000#32],
    fdiv a z = (if valueOf a = 0 then 0x7FC00000#32
      else if signBit a = signBit z then 0x7F800000#32 else 0xFF800000#32)) ∧
  (∀ c ∈ [0x7F800000#32, 0xFF800000#32], ∀ d ∈ [0x7F800000#32, 0xFF800000#32],
    fadd c d = (if c = d then c else 0x7FC00000#32) ∧ fsub c d = (if c = d then 0x7FC00000#32 else c) ∧
    fmul c d = (if c = d then 0x7F800000#32 else 0xFF800000#32) ∧ fdiv c d = 0x7FC00000#32 ∧
    flt c d = decide (c = 0xFF800000#32 ∧ d = 0x7F800000#32)) ∧
  fsqrt 0x7F800000#32 = 0x7F800000#32 ∧ fsqrt 0xFF800000#32 = 0x7FC00000#32 ∧
  ffloor 0xFF800000#32 = 0xFF800000#32 ∧ ffloor 0x7F800000#32 = 0x7F800000#32

/-- Every entry of the twiddle ROM of every instance is the correctly rounded cosine and negated sine,
with the two exact zeros +0 and the entries the rule lists for LOG2N_MAX = 12 (R84). The twiddle of index
`k` for N = 2^l is entry k · 2^(LOG2N_MAX − l) of it (R85), so, as R85 itself infers ("derived: from rule
R84"), the correctly rounded cosine and negated sine of 2πk/N, an exact zero +0, on every instance; for the
inverse transform the sign bit of its imaginary part is flipped (R87), and of nothing else. -/
def Obligations.TwiddleRomRounded : Prop :=
  (∀ L j : Nat, 2 ≤ L → L ≤ 13 → j < 2 ^ (L - 1) →
    NearestEven (Real.cos (2 * Real.pi * j / 2 ^ L)) (twr L j) ∧
    NearestEven (-Real.sin (2 * Real.pi * j / 2 ^ L)) (twi L j)) ∧
  (∀ L : Nat, 2 ≤ L → L ≤ 13 → twi L 0 = 0x00000000#32 ∧ twr L (2 ^ (L - 2)) = 0x00000000#32) ∧
  [0, 1, 2, 256, 512, 1024, 1536, 2047].map (fun j => (twr 12 j, twi 12 j)) =
    [(0x3F800000#32, 0x00000000#32), (0x3F7FFFEC#32, 0xBAC90FD5#32), (0x3F7FFFB1#32, 0xBB490FC6#32),
     (0x3F6C835E#32, 0xBEC3EF15#32), (0x3F3504F3#32, 0xBF3504F3#32), (0x00000000#32, 0xBF800000#32),
     (0xBF3504F3#32, 0xBF3504F3#32), (0xBF7FFFEC#32, 0xBAC90FD5#32)] ∧
  ∀ L l k : Nat, 2 ≤ L → L ≤ 13 → 1 ≤ l → l ≤ L → k < 2 ^ (l - 1) →
    let fwd := twiddle L l false k
    let inv := twiddle L l true k
    fwd = ⟨twr L (k * 2 ^ (L - l)), twi L (k * 2 ^ (L - l))⟩ ∧
    NearestEven (Real.cos (2 * Real.pi * k / 2 ^ l)) fwd.re ∧
    NearestEven (-Real.sin (2 * Real.pi * k / 2 ^ l)) fwd.im ∧
    (k = 0 → fwd.im = 0x00000000#32) ∧ (4 * k = 2 ^ l → fwd.re = 0x00000000#32) ∧
    inv.re = fwd.re ∧
    ∀ b, b < 32 → inv.im.getLsbD b = if b = 31 then !fwd.im.getLsbD b else fwd.im.getLsbD b

/-- The bit-reversal indexer: the bits in reversed order, with the two examples of the rule, and, which is
the spec's own inference (R86 marks it "derived: from the definition"), a permutation of [0, 2^L) and its
own inverse (R86). -/
def Obligations.BitReversal : Prop :=
  (∀ L i : Nat, i < 2 ^ L →
    bitrev L i = ∑ b ∈ Finset.range L, (i / 2 ^ b % 2) * 2 ^ (L - 1 - b) ∧
    bitrev L i < 2 ^ L ∧ bitrev L (bitrev L i) = i ∧
    ∀ b, b < L → bitrev L i / 2 ^ (L - 1 - b) % 2 = i / 2 ^ b % 2) ∧
  (∀ L : Nat, Set.BijOn (bitrev L) {i | i < 2 ^ L} {i | i < 2 ^ L}) ∧
  (List.range 8).map (bitrev 3) = [0, 4, 2, 6, 1, 5, 3, 7] ∧ (List.range 2).map (bitrev 1) = [0, 1]

/-- OMEGA is the exact product TWO_PI_F32 · k · hop / N rounded once, an exact zero giving +0, with the
values of the rule (R96). -/
def Obligations.OmegaRounded : Prop :=
  (∀ L k hop : Nat,
    roundsTo ((valueOf 0x40C90FDB#32 : ℝ) * k * hop / 2 ^ L) (omega (2 ^ L) k hop) ∧
    (k * hop = 0 → omega (2 ^ L) k hop = 0x00000000#32)) ∧
  omega 4 1 1 = 0x3FC90FDB#32 ∧ omega 4 2 1 = 0x40490FDB#32 ∧ omega 4 3 1 = 0x4096CBE4#32 ∧
  omega 256 5 64 = 0x40FB53D2#32 ∧ omega 256 255 64 = 0x43C846CB#32

/-- Of every word, in range or not, princarg is the rule's five rounded operations; PI_F32 goes to −PI_F32,
an infinity or a NaN to the canonical NaN, and the rule's other examples hold (R95). That every phase from
−PI_F32 up to but not PI_F32 is a fixed point, ±0 included, is the spec's own inference: R95 marks it
"derived: from the pseudocode". -/
def Obligations.PrincargFixedPoints : Prop :=
  (∀ x : Word, princarg x =
    fsub x (fmul 0x40C90FDB#32 (ffloor (fdiv (fadd x 0x40490FDB#32) 0x40C90FDB#32)))) ∧
  (∀ y : Word, isFin y = true → -valueOf 0x40490FDB#32 ≤ valueOf y → valueOf y < valueOf 0x40490FDB#32 →
    princarg y = y) ∧
  (∀ y : Word, isFin y = false → princarg y = 0x7FC00000#32) ∧
  princarg 0x40490FDB#32 = 0xC0490FDB#32 ∧ princarg 0x4116CBE4#32 = 0xC0490FDC#32 ∧
  princarg 0x4449D8EA#32 = 0xC0491100#32 ∧ princarg 0xC0490FDC#32 = 0x40490FDA#32 ∧
  princarg 0x7149F2CA#32 = 0x65800000#32

/-- What the trigonometric functions obey, whatever the instance's unit: NaN and infinite operands, the
zeros, the ranges, and the error bound on every other operand (R10). At one infinite operand of ATAN2_32
the exact value is the limit, and at two it is the odd multiple of π/4 of IEEE 754: the model's reading of
R10's "every other operand" (log entry 8). -/
def Obligations.TrigLaws : Prop :=
  (∀ x : Word, (isNaN x = true ∨ isInf x = true → sin32 x = 0x7FC00000#32 ∧ cos32 x = 0x7FC00000#32) ∧
    (isFin x = true → finWithin 0x3F800000#32 (sin32 x) ∧ finWithin 0x3F800000#32 (cos32 x) ∧
      (isZero x = true → sin32 x = x ∧ cos32 x = 0x3F800000#32) ∧
      (isZero x = false →
        ulpsFrom Config.trig.errUlp (Real.sin (valueOf x)) (sin32 x) ∧
        ulpsFrom Config.trig.errUlp (Real.cos (valueOf x)) (cos32 x)))) ∧
  (∀ y x : Word, isNaN y = true ∨ isNaN x = true → atan2F32 y x = 0x7FC00000#32) ∧
  (∀ y x : Word, isNaN y = false → isNaN x = false → finWithin 0x40490FDB#32 (atan2F32 y x)) ∧
  (∀ x : Word, isNaN x = false →
    (signBit x = false → atan2F32 0x00000000#32 x = 0x00000000#32 ∧
      atan2F32 0x80000000#32 x = 0x80000000#32) ∧
    (signBit x = true → atan2F32 0x00000000#32 x = 0x40490FDB#32 ∧
      atan2F32 0x80000000#32 x = 0xC0490FDB#32)) ∧
  (∀ y x : Word, isNaN y = false → isZero y = false → isZero x = true →
    atan2F32 y x = if signBit y = true then 0xBFC90FDB#32 else 0x3FC90FDB#32) ∧
  (∀ y x : Word, isFin y = true → isFin x = true → isZero y = false → isZero x = false →
    ulpsFrom Config.trig.errUlp (Complex.arg ⟨(valueOf x : ℝ), (valueOf y : ℝ)⟩) (atan2F32 y x)) ∧
  (∀ y x : Word, isNaN y = false → isNaN x = false →
    let near := fun angle : ℝ =>
      ulpsFrom Config.trig.errUlp (if signBit y = true then -angle else angle) (atan2F32 y x)
    (isFin y = true → isZero y = false → x = 0x7F800000#32 → near 0) ∧
    (isFin y = true → isZero y = false → x = 0xFF800000#32 → near Real.pi) ∧
    (isInf y = true → isFin x = true → isZero x = false → near (Real.pi / 2)) ∧
    (isInf y = true → x = 0x7F800000#32 → near (Real.pi / 4)) ∧
    (isInf y = true → x = 0xFF800000#32 → near (3 * Real.pi / 4)))

/-- FFT_FWD of an impulse of 1.0 at index 0 gives 1.0 in every real word and +0 in every imaginary word,
exactly, at every size of every instance. This is the spec's own inference: R89 marks it "derived: from this
pseudocode, checked on the vectors of 95_test_vectors.md". -/
def Obligations.FftOfImpulse : Prop :=
  ∀ (s : State) (a b : Nat),
    let n := 2 ^ s.log2n.toNat
    s.ok = true → s.initDone = true → s.fits a n → s.fits b (2 * n) →
    memWord s.mem a = 0x3F800000#32 → (∀ i, 0 < i → i < n → memWord s.mem (a + i) = 0x00000000#32) →
    ∃ t, exec (.fftFwd a b) s = .next t ∧
      ∀ k, k < n → memWord t.mem (b + k) = 0x3F800000#32 ∧ memWord t.mem (b + n + k) = 0x00000000#32

/-! ### What no command does -/

/-- A command changes no byte of DMEM outside the extents the soft-reset rule lists as the ones it writes,
and a faulting command changes none (R135, R121, R62). -/
def Obligations.WritesInsideExtents : Prop :=
  ∀ (i : Instr) (s t : State), exec i s = .next t →
    (∀ x, (∀ e ∈ writtenExtents s.nPoints i, ¬ (e.1 ≤ x / 4 ∧ x / 4 < e.1 + e.2)) →
      memByte t.mem x = memByte s.mem x) ∧
    (check i s ≠ .none → t.mem = s.mem ∧ t.p = s.p ∧ t.cmdcnt = s.cmdcnt ∧ t.doneBit = s.doneBit ∧
      t.log2n = s.log2n ∧ t.ratio = s.ratio ∧ t.beta = s.beta ∧ t.mix = s.mix ∧ t.queue = [])

/-- CMDCNT: one more at each fault-free completion and at nothing else, 0 at a reset, and what the host
reads at 0x018 (R31). -/
def Obligations.CmdcntExact : Prop :=
  (∀ s : State, hostReads 0x018 s s.cmdcnt) ∧
  (∀ s t : State, step s = .next t →
    (s.engineTurn →
      t.cmdcnt = match s.cur with
        | some c => if checkCmd c s = .none then s.cmdcnt + 1#32 else s.cmdcnt
        | none => s.cmdcnt) ∧
    (∀ mv ts, s.turns = .host mv :: ts →
      (isReset s mv → t.cmdcnt = 0#32) ∧ (¬ isReset s mv → t.cmdcnt = s.cmdcnt)))

/-- DONE is set by the complete step of a fault-free command that leaves the queue empty and by nothing
else; a STATUS write with bit 4 set and a reset clear it; a faulting command sets FAULT instead (R52). -/
def Obligations.DoneExact : Prop :=
  ∀ s t : State, step s = .next t →
    (∀ c, s.engineTurn → s.cur = some c → checkCmd c s = .none → s.queue = [] → t.doneBit = true) ∧
    (t.doneBit = true → s.doneBit = false →
      s.engineTurn ∧ ∃ c, s.cur = some c ∧ checkCmd c s = .none ∧ s.queue = []) ∧
    (∀ c, s.engineTurn → s.cur = some c → checkCmd c s ≠ .none →
      t.doneBit = s.doneBit ∧ t.faulted = true) ∧
    (∀ v ts, s.turns = .host (.write (s.hw.base + 0x00C) 4 v) :: ts → v.getLsbD 4 = true →
      t.doneBit = false) ∧
    (∀ mv ts, s.turns = .host mv :: ts → isReset s mv → t.doneBit = false)

/-- The parameter registers, CFG.LOG2N and INIT_DONE change only by a SETPARAM or an INIT taken from the
queue, and by a reset (R43). -/
def Obligations.ParametersOnlyByCommands : Prop :=
  ∀ s t : State, step s = .next t →
    ¬ (t.ratio = s.ratio ∧ t.invRatio = s.invRatio ∧ t.beta = s.beta ∧ t.mix = s.mix ∧
      t.omMix = s.omMix ∧ t.log2n = s.log2n ∧ t.initDone = s.initDone) →
    (∃ mv ts, s.turns = .host mv :: ts ∧ isReset s mv) ∨
    (s.engineTurn ∧ ∃ c i, s.cur = some c ∧ decode c = .ok i ∧ check i s = .none ∧
      ((∃ id v, i = .setparam id v) ∨ ∃ k, i = .init k))

/-! ### The host's moves (10_state.md section 3, 20_memory.md, 60_exceptions.md) -/

/-- The push: dropped while FAULT = 1, a CQ_OVERFLOW fault entry on a full queue, else an append; the
staging registers are cleared in every case, and CUR is not touched (R35, R123, R140). -/
def Obligations.PushRule : Prop :=
  (∀ (s : State) (v : Word),
    let cmd := cmdOfWords s.cmd0 s.cmd1 s.cmd2 v
    let s' := { s with cmd0 := 0#32, cmd1 := 0#32, cmd2 := 0#32 }
    (s.faulted = true → hostWrites 0x04C v s s') ∧
    (s.faulted = false → s.queue.length = s.hw.cqDepth →
      hostWrites 0x04C v s
        { s' with faulted := true, cause := .cqOverflow, faultCmd := cmd, queue := [] }) ∧
    (s.faulted = false → s.pushSafe = true → hostWrites 0x04C v s { s' with queue := s.queue ++ [cmd] })) ∧
  (∀ (s : State) (v : Word),
    hostWrites 0x040 v s { s with cmd0 := v } ∧ hostWrites 0x044 v s { s with cmd1 := v } ∧
    hostWrites 0x048 v s { s with cmd2 := v } ∧ hostReads 0x040 s s.cmd0 ∧ hostReads 0x044 s s.cmd1 ∧
    hostReads 0x048 s s.cmd2 ∧ hostReads 0x04C s 0#32) ∧
  (State.reset.cmd0 = 0#32 ∧ State.reset.cmd1 = 0#32 ∧ State.reset.cmd2 = 0#32)

/-- The DMEM window: with ACTIVE = 0 a read gives the word unchanged and a write stores it unchanged,
beyond DMEM a read gives 0 and a write is ignored; with ACTIVE = 1 a read gives 0, a write is dropped,
and HCOLL is set (R60, R61). -/
def Obligations.DmemWindow : Prop :=
  ∀ (s : State) (i : Nat) (v : Word), i < 0x10000 →
    (s.quiet = true → i < s.dmemWords →
      hostReads (0x40000 + 4 * i) s (memWord s.mem i) ∧
      ∃ m, hostWrites (0x40000 + 4 * i) v s { s with mem := m } ∧ writesOne i v s.mem m) ∧
    (s.quiet = true → s.dmemWords ≤ i →
      hostReads (0x40000 + 4 * i) s 0#32 ∧ hostWrites (0x40000 + 4 * i) v s s) ∧
    (s.quiet = false →
      hostMoves (.read (s.hw.base + (0x40000 + 4 * i)) 4) s { s with rdata := 0#32, hcollBit := true } ∧
      hostWrites (0x40000 + 4 * i) v s { s with hcollBit := true })

/-- A CTRL write without SRST: CLRFAULT clears FAULT and CAUSE and keeps FAULT_CMD, ABORT empties the
queue, a zero bit does nothing, and nothing else changes; CTRL reads 0 (R27, R122, R124). -/
def Obligations.CtrlActions : Prop :=
  ∀ (s : State) (v : Word),
    hostReads 0x008 s 0#32 ∧
    (v.getLsbD 0 = false →
      hostWrites 0x008 v s
        { s with
          faulted := s.faulted && !v.getLsbD 1
          cause := if s.faulted = true ∧ v.getLsbD 1 = true then .none else s.cause
          queue := if v.getLsbD 2 = true then [] else s.queue })

/-- STATUS bits as the host reads them, write 1 to clear, and the IRQ line as a function of STATUS and
IRQ_EN (R28, R29, R125). -/
def Obligations.StatusAndIrq : Prop :=
  ∀ (s : State) (v : Word),
    (∃ w, hostReads 0x00C s w ∧ w.getLsbD 0 = s.cur.isSome ∧
      w.getLsbD 1 = (s.cur.isSome || decide (0 < s.queue.length)) ∧ w.getLsbD 2 = s.initDone ∧
      w.getLsbD 3 = s.faulted ∧ w.getLsbD 4 = s.doneBit ∧ w.getLsbD 5 = s.hcollBit ∧
      ∀ k, 6 ≤ k → w.getLsbD k = false) ∧
    hostWrites 0x00C v s
      { s with
        doneBit := if v.getLsbD 4 = true then false else s.doneBit
        hcollBit := if v.getLsbD 5 = true then false else s.hcollBit } ∧
    hostWrites 0x010 v s { s with irqEn := v.extractLsb' 0 3 } ∧
    hostReads 0x010 s (s.irqEn.zeroExtend 32) ∧
    (s.irq = true ↔
      (s.doneBit = true ∧ s.irqEn.getLsbD 0 = true) ∨ (s.faulted = true ∧ s.irqEn.getLsbD 1 = true) ∨
      (s.hcollBit = true ∧ s.irqEn.getLsbD 2 = true))

/-- ID and HWCFG: their values, that a write there is ignored, and that no step changes an instance
(R25, R26). -/
def Obligations.IdAndHwcfg : Prop :=
  (∀ (s : State) (v : Word), hostReads 0x000 s 0x44534531#32 ∧ hostWrites 0x000 v s s ∧
    hostWrites 0x004 v s s) ∧
  (∀ s : State, s.hw.legal = true → ∃ w, hostReads 0x004 s w ∧
    (w.extractLsb' 0 5).toNat = s.hw.log2nMax ∧ (w.extractLsb' 5 3).toNat = 0 ∧
    (w.extractLsb' 8 5).toNat = s.hw.dmemLog2 ∧ (w.extractLsb' 13 3).toNat = 0 ∧
    (w.extractLsb' 16 8).toNat = s.hw.cqDepth ∧ (w.extractLsb' 24 8).toNat = 0) ∧
  (∀ s t : State, step s = .next t → t.hw = s.hw)

/-- The other read-only registers: what the host reads, that a write is ignored, and that the pointer
registers reset to 0 (R30, R32 to R34, R36 to R41). -/
def Obligations.ReadOnlyRegisters : Prop :=
  (∀ s : State,
    hostReads 0x014 s (match s.cause with
      | .none => 0x00#32 | .illegalOpcode => 0x01#32 | .reservedField => 0x02#32 | .notInit => 0x03#32
      | .fieldRange => 0x04#32 | .addrRange => 0x05#32 | .cqOverflow => 0x06#32) ∧
    (s.queue.length < 2 ^ 8 → hostReads 0x01C s (BitVec.ofNat 32 s.queue.length)) ∧
    hostReads 0x020 s (s.log2n.zeroExtend 32) ∧
    hostReads 0x030 s (s.faultCmd.extractLsb' 0 32) ∧ hostReads 0x034 s (s.faultCmd.extractLsb' 32 32) ∧
    hostReads 0x038 s (s.faultCmd.extractLsb' 64 32) ∧ hostReads 0x03C s (s.faultCmd.extractLsb' 96 32) ∧
    hostReads 0x050 s s.ratio ∧ hostReads 0x054 s s.invRatio ∧ hostReads 0x058 s s.beta ∧
    hostReads 0x05C s s.mix ∧ hostReads 0x060 s s.omMix ∧
    (∀ r : Fin 8, hostReads (0x080 + 4 * r.val) s ((s.p.get r).zeroExtend 32))) ∧
  (∀ (s : State) (v : Word), ∀ off ∈ [0x014, 0x018, 0x01C, 0x020, 0x030, 0x034, 0x038, 0x03C, 0x050, 0x054,
      0x058, 0x05C, 0x060, 0x080, 0x084, 0x088, 0x08C, 0x090, 0x094, 0x098, 0x09C],
    hostWrites off v s s) ∧
  (∀ r : Fin 8, State.reset.p.get r = 0#16)

/-- A host read of an offset below 0x40000 that the register table does not name gives 0, a write there
is ignored, and neither raises an error or changes state (R42). -/
def Obligations.ReservedOffsets : Prop :=
  ∀ (s : State) (v : Word) (off : Nat), off < 0x40000 → off % 4 = 0 →
    off ∉ [0x000, 0x004, 0x008, 0x00C, 0x010, 0x014, 0x018, 0x01C, 0x020, 0x030, 0x034, 0x038, 0x03C,
      0x040, 0x044, 0x048, 0x04C, 0x050, 0x054, 0x058, 0x05C, 0x060, 0x080, 0x084, 0x088, 0x08C, 0x090,
      0x094, 0x098, 0x09C] →
    hostReads off s 0#32 ∧ hostWrites off v s s

/-- An aligned 32-bit access inside the region completes; any other width or alignment there is refused
(R55), and so is a second bus master (R21). An access outside the region, below it or above, faults by the
name outsideRegion: the model's choice, since the spec leaves it to the platform (R59; log entry 11). -/
def Obligations.DefinedAccesses : Prop :=
  ∀ (s : State) (ts : List Turn) (addr bytes : Nat) (v : Word),
    let read : State := { s with turns := .host (.read addr bytes) :: ts }
    let write : State := { s with turns := .host (.write addr bytes v) :: ts }
    let inside := s.hw.base ≤ addr ∧ addr < s.hw.base + 0x80000
    let aligned := (addr - s.hw.base) % 4 = 0
    (inside ∧ bytes = 4 ∧ aligned → (∃ t, step read = .next t) ∧ ∃ t, step write = .next t) ∧
    (inside ∧ ¬ (bytes = 4 ∧ aligned) →
      step read = .refused .undefinedAccess ∧ step write = .refused .undefinedAccess) ∧
    (¬ inside → step read = .fault .outsideRegion ∧ step write = .fault .outsideRegion) ∧
    step { s with turns := .host .secondMaster :: ts } = .refused .secondMaster

/-- Soft reset: every register, the queue and CUR at their reset values, whatever else the CTRL write
sets, and every byte of DMEM kept outside the words of an abandoned command (R27, R53, R135). -/
def Obligations.SoftReset : Prop :=
  ∀ (s : State) (v : Word), v.getLsbD 0 = true → ∃ t, hostWrites 0x008 v s t ∧
    t.atReset ∧ t.hw = s.hw ∧ t.irq = false ∧
    ∀ x, ¬ s.abandoned (x / 4) → memByte t.mem x = memByte s.mem x

/-- The reset input: whatever cells the run brings, every register, the queue and CUR are at their reset
values, and DMEM holds every byte the run lists (the first cell of an address counts); every content can be
brought (R53, R134, R136). -/
def Obligations.ResetInput : Prop :=
  (∀ (s : State) (dmem : List Host.Cell), ∃ t, hostMoves (.assertReset dmem) s t ∧
    t.atReset ∧ t.hw = s.hw ∧ t.irq = false ∧ t.memOk = true ∧
    ∀ x v, x < 4 * s.dmemWords → dmem.find? (fun cell => cell.1 == x) = some (x, v) →
      memByte t.mem x = v) ∧
  (∀ (s : State) (content : Nat → Byte), ∃ dmem t, hostMoves (.assertReset dmem) s t ∧
    ∀ x, x < 4 * s.dmemWords → memByte t.mem x = content x)

/-! ### The whole machine -/

/-- Every step keeps the invariant of the machine: DMEM in canonical form and inside its bounds, the
queue within CQ_DEPTH and empty while FAULT = 1, CAUSE 0 exactly while FAULT = 0, RATIO and MIX in range
with INVRATIO and OMMIX computed from them, CFG.LOG2N legal once INIT_DONE = 1, the scratch NMAX long. -/
def Obligations.InvariantKept : Prop :=
  ∀ s t : State, s.ok = true → step s = .next t → t.ok = true

/-- The machine right after reset meets the invariant, with the registers the spec gives values for at
those values. The instance (log entry 3), the content of DMEM (log entry 4), the scratch (log entry 6)
and the empty turn list (log entry 2) are the model's choice. -/
def Obligations.ResetMeetsInvariant : Prop := State.reset.ok = true ∧ State.reset.atReset

/-- If the host makes no move, the engine comes to rest: within two steps for each command held, ACTIVE
is 0, and every command has completed, unless one of them faulted (R49, R50, R145). That a step with no
turn listed is the engine's is the model's choice (log entry 2). -/
def Obligations.EngineDrains : Prop :=
  ∀ s : State, s.ok = true → s.turns = [] →
    ∃ k t, k ≤ 2 * s.queue.length + 1 ∧ Host.Core.run core k s = .next t ∧ t.active = false ∧
      (t.faulted = true ∨
        t.cmdcnt = s.cmdcnt + BitVec.ofNat 32 (s.queue.length + s.cur.toList.length))

end
end

