-- ==== Sys2Proof/Laws/Mem.lean ====
section
/-! SUPPORT. The laws of DMEM: what a read gives after a write, and that every write keeps the
canonical form and stays inside DMEM. -/

namespace Sys2Proof.Machine

/-! ### Bytes -/

theorem memByte_eraseByte (m : Mem) (a b : Nat) :
    memByte (eraseByte m a) b = if b = a then unlistedByte else memByte m b := by
  induction m with
  | nil => simp [eraseByte, memByte]
  | cons c m ih =>
    obtain ⟨k, v⟩ := c
    by_cases hk : k = a
    · subst hk
      by_cases hb : b = k
      · subst hb; simp [eraseByte, ih]
      · have hb' : ¬ k = b := fun h => hb h.symm
        simp [eraseByte, memByte, ih, hb, hb']
    · by_cases hb : k = b
      · subst hb; simp [eraseByte, memByte, hk]
      · simp [eraseByte, memByte, hk, hb, ih]

theorem memByte_insertByte (m : Mem) (a b : Nat) (v : Byte) (h : ∀ c ∈ m, c.1 ≠ a) :
    memByte (insertByte m a v) b = if b = a then v else memByte m b := by
  induction m with
  | nil => by_cases hb : a = b <;> simp [insertByte, memByte, hb, eq_comm]
  | cons c m ih =>
    obtain ⟨k, w⟩ := c
    have hk : k ≠ a := h (k, w) (by simp)
    have ih := ih fun c hc => h c (by simp [hc])
    by_cases hlt : k < a
    · by_cases hb : k = b
      · subst hb; simp [insertByte, memByte, hlt, hk]
      · simp [insertByte, memByte, hlt, hb, ih]
    · by_cases hb : a = b
      · subst hb; simp [insertByte, memByte, hlt]
      · have hb' : ¬ b = a := fun h => hb h.symm
        simp [insertByte, memByte, hlt, hb, hb']

theorem mem_eraseByte {m : Mem} {a : Nat} {c : Host.Cell} (h : c ∈ eraseByte m a) :
    c ∈ m ∧ c.1 ≠ a := by
  induction m with
  | nil => simp [eraseByte] at h
  | cons d m ih =>
    obtain ⟨k, v⟩ := d
    by_cases hk : k = a
    · simp only [eraseByte, hk, if_true] at h
      have := ih h
      exact ⟨by simp [this.1], this.2⟩
    · simp only [eraseByte, hk, if_false, List.mem_cons] at h
      rcases h with rfl | h
      · exact ⟨by simp, hk⟩
      · have := ih h
        exact ⟨by simp [this.1], this.2⟩

/-- A read after a write: the byte written, and every other byte as it was. -/
theorem memByte_setByte (m : Mem) (a b : Nat) (v : Byte) :
    memByte (setByte m a v) b = if b = a then v else memByte m b := by
  unfold setByte
  split
  · next h => rw [memByte_eraseByte, h]
  · rw [memByte_insertByte _ _ _ _ fun c hc => (mem_eraseByte hc).2, memByte_eraseByte]
    split <;> rfl

/-! ### The canonical form -/

theorem wfFrom_mono {m : Mem} {lo lo' : Nat} (hle : lo' ≤ lo) (h : Mem.wfFrom lo m = true) :
    Mem.wfFrom lo' m = true := by
  cases m with
  | nil => rfl
  | cons c m =>
    simp only [Mem.wfFrom, Bool.and_eq_true, decide_eq_true_eq] at h ⊢
    exact ⟨⟨hle.trans h.1.1, h.1.2⟩, h.2⟩

theorem wfFrom_eraseByte {m : Mem} {lo a : Nat} (h : Mem.wfFrom lo m = true) :
    Mem.wfFrom lo (eraseByte m a) = true := by
  induction m generalizing lo with
  | nil => rfl
  | cons c m ih =>
    obtain ⟨k, v⟩ := c
    simp only [Mem.wfFrom, Bool.and_eq_true, decide_eq_true_eq] at h
    by_cases hk : k = a
    · simp only [eraseByte, hk, if_true]
      exact wfFrom_mono (by omega) (ih h.2)
    · simp only [eraseByte, hk, if_false, Mem.wfFrom, Bool.and_eq_true, decide_eq_true_eq]
      exact ⟨h.1, ih h.2⟩

theorem wfFrom_insertByte {m : Mem} {lo a : Nat} {v : Byte} (hv : v ≠ unlistedByte) (ha : lo ≤ a)
    (hm : ∀ c ∈ m, c.1 ≠ a) (h : Mem.wfFrom lo m = true) :
    Mem.wfFrom lo (insertByte m a v) = true := by
  induction m generalizing lo with
  | nil => simp [insertByte, Mem.wfFrom, ha, hv]
  | cons c m ih =>
    obtain ⟨k, w⟩ := c
    have hk : k ≠ a := hm (k, w) (by simp)
    simp only [Mem.wfFrom, Bool.and_eq_true, decide_eq_true_eq] at h
    by_cases hlt : k < a
    · simp only [insertByte, hlt, if_true, Mem.wfFrom, Bool.and_eq_true, decide_eq_true_eq]
      exact ⟨h.1, ih (by omega) (fun c hc => hm c (by simp [hc])) h.2⟩
    · simp only [insertByte, hlt, if_false, Mem.wfFrom, Bool.and_eq_true, decide_eq_true_eq]
      exact ⟨⟨ha, hv⟩, ⟨by omega, h.1.2⟩, h.2⟩

/-- A byte write keeps the canonical form. -/
theorem wf_setByte {m : Mem} (a : Nat) (v : Byte) (h : m.wf = true) : (setByte m a v).wf = true := by
  unfold setByte
  split
  · exact wfFrom_eraseByte h
  · next hv =>
    exact wfFrom_insertByte hv (Nat.zero_le a) (fun c hc => (mem_eraseByte hc).2) (wfFrom_eraseByte h)

theorem mem_insertByte {m : Mem} {a : Nat} {v : Byte} {c : Host.Cell} (h : c ∈ insertByte m a v) :
    c = (a, v) ∨ c ∈ m := by
  induction m with
  | nil => simpa [insertByte] using h
  | cons d m ih =>
    obtain ⟨k, w⟩ := d
    by_cases hlt : k < a
    · simp only [insertByte, hlt, if_true, List.mem_cons] at h ⊢
      rcases h with rfl | h
      · simp
      · rcases ih h with h | h <;> simp [h]
    · simp only [insertByte, hlt, if_false, List.mem_cons] at h ⊢
      tauto

/-- A byte write inside DMEM lists nothing outside it. -/
theorem within_setByte {m : Mem} {words a : Nat} (v : Byte) (ha : a < 4 * words)
    (h : m.within words = true) : (setByte m a v).within words = true := by
  simp only [Mem.within, List.all_eq_true, decide_eq_true_eq] at h ⊢
  intro c hc
  unfold setByte at hc
  split at hc
  · exact h c (mem_eraseByte hc).1
  · rcases mem_insertByte hc with rfl | hc
    · exact ha
    · exact h c (mem_eraseByte hc).1

/-! ### Words -/

theorem laneOf_toNat (v : Word) (k : Nat) : (laneOf v k).toNat = v.toNat / 2 ^ (8 * k) % 2 ^ 8 := by
  simp [laneOf, field]

/-- A word is its four byte lanes (R54). -/
theorem wordOfLanes_laneOf (v : Word) :
    wordOfLanes (laneOf v 0) (laneOf v 1) (laneOf v 2) (laneOf v 3) = v := by
  apply BitVec.eq_of_toNat_eq
  have := v.isLt
  simp only [wordOfLanes, BitVec.toNat_ofNat, laneOf_toNat]
  omega

/-- The bytes after a word write: the word's own lanes, and every other byte as it was. -/
theorem memByte_setWord (m : Mem) (a : Nat) (v : Word) (x : Nat) :
    memByte (setWord m a v) x = if x / 4 = a then laneOf v (x % 4) else memByte m x := by
  simp only [setWord, memByte_setByte]
  by_cases h : x / 4 = a
  · have h4 : x % 4 = 0 ∨ x % 4 = 1 ∨ x % 4 = 2 ∨ x % 4 = 3 := by omega
    rcases h4 with h4 | h4 | h4 | h4
    · rw [if_neg (by omega), if_neg (by omega), if_neg (by omega), if_pos (by omega), if_pos h, h4]
    · rw [if_neg (by omega), if_neg (by omega), if_pos (by omega), if_pos h, h4]
    · rw [if_neg (by omega), if_pos (by omega), if_pos h, h4]
    · rw [if_pos (by omega), if_pos h, h4]
  · rw [if_neg (by omega), if_neg (by omega), if_neg (by omega), if_neg (by omega), if_neg h]

/-- The words after a word write: the word written, and every other word as it was. -/
theorem memWord_setWord (m : Mem) (a b : Nat) (v : Word) :
    memWord (setWord m a v) b = if b = a then v else memWord m b := by
  have h0 : 4 * b / 4 = b := by omega
  have h1 : (4 * b + 1) / 4 = b := by omega
  have h2 : (4 * b + 2) / 4 = b := by omega
  have h3 : (4 * b + 3) / 4 = b := by omega
  have m0 : 4 * b % 4 = 0 := by omega
  have m1 : (4 * b + 1) % 4 = 1 := by omega
  have m2 : (4 * b + 2) % 4 = 2 := by omega
  have m3 : (4 * b + 3) % 4 = 3 := by omega
  simp only [memWord, memByte_setWord, h0, h1, h2, h3, m0, m1, m2, m3]
  split
  · exact wordOfLanes_laneOf v
  · rfl

@[simp] theorem memWord_setWord_same (m : Mem) (a : Nat) (v : Word) : memWord (setWord m a v) a = v := by
  simp [memWord_setWord]

theorem memWord_setWord_of_ne (m : Mem) {a b : Nat} (v : Word) (h : b ≠ a) :
    memWord (setWord m a v) b = memWord m b := by
  simp [memWord_setWord, h]

/-- A word write keeps the canonical form. -/
theorem wf_setWord {m : Mem} (a : Nat) (v : Word) (h : m.wf = true) : (setWord m a v).wf = true :=
  wf_setByte _ _ (wf_setByte _ _ (wf_setByte _ _ (wf_setByte _ _ h)))

/-- A word write inside DMEM lists nothing outside it. -/
theorem within_setWord {m : Mem} {words a : Nat} (v : Word) (ha : a < words)
    (h : m.within words = true) : (setWord m a v).within words = true :=
  within_setByte _ (by omega) (within_setByte _ (by omega) (within_setByte _ (by omega)
    (within_setByte _ (by omega) h)))

/-- The content a reset move brings is put into canonical form, inside DMEM (R136). -/
theorem wf_memOfCells (words : Nat) (cells : List Host.Cell) :
    (memOfCells words cells).wf = true ∧ (memOfCells words cells).within words = true := by
  induction cells with
  | nil => exact ⟨rfl, rfl⟩
  | cons c cells ih =>
    obtain ⟨a, v⟩ := c
    unfold memOfCells
    split
    · next h => exact ⟨wf_setByte _ _ ih.1, within_setByte _ h ih.2⟩
    · exact ih

/-! ### Loops -/

@[simp] theorem loop_zero {σ : Type} (body : Nat → σ → σ) (s : σ) : loop 0 body s = s := rfl

theorem loop_succ {σ : Type} (n : Nat) (body : Nat → σ → σ) (s : σ) :
    loop (n + 1) body s = body n (loop n body s) := rfl

/-- What every pass of a loop keeps, the loop keeps. -/
theorem loop_keeps {σ : Type} {P : σ → Prop} {n : Nat} {body : Nat → σ → σ} {s : σ}
    (hbody : ∀ i s, i < n → P s → P (body i s)) (h : P s) : P (loop n body s) := by
  induction n with
  | zero => exact h
  | succ n ih => exact hbody n _ (by omega) (ih fun i s hi => hbody i s (by omega))

end Sys2Proof.Machine
end

