-- ==== Sys2Proof/Laws/State.lean ====
section
/-! SUPPORT. What each update of the state does to each field, so that no proof unfolds a record update. -/

namespace Sys2Proof.Machine

/-! ### `State.setMem` -/

section
variable (s : State) (m : Mem)

@[simp] theorem setMem_hw : (s.setMem m).hw = s.hw := rfl
@[simp] theorem setMem_initDone : (s.setMem m).initDone = s.initDone := rfl
@[simp] theorem setMem_faulted : (s.setMem m).faulted = s.faulted := rfl
@[simp] theorem setMem_doneBit : (s.setMem m).doneBit = s.doneBit := rfl
@[simp] theorem setMem_hcollBit : (s.setMem m).hcollBit = s.hcollBit := rfl
@[simp] theorem setMem_irqEn : (s.setMem m).irqEn = s.irqEn := rfl
@[simp] theorem setMem_cause : (s.setMem m).cause = s.cause := rfl
@[simp] theorem setMem_cmdcnt : (s.setMem m).cmdcnt = s.cmdcnt := rfl
@[simp] theorem setMem_log2n : (s.setMem m).log2n = s.log2n := rfl
@[simp] theorem setMem_faultCmd : (s.setMem m).faultCmd = s.faultCmd := rfl
@[simp] theorem setMem_cmd0 : (s.setMem m).cmd0 = s.cmd0 := rfl
@[simp] theorem setMem_cmd1 : (s.setMem m).cmd1 = s.cmd1 := rfl
@[simp] theorem setMem_cmd2 : (s.setMem m).cmd2 = s.cmd2 := rfl
@[simp] theorem setMem_ratio : (s.setMem m).ratio = s.ratio := rfl
@[simp] theorem setMem_invRatio : (s.setMem m).invRatio = s.invRatio := rfl
@[simp] theorem setMem_beta : (s.setMem m).beta = s.beta := rfl
@[simp] theorem setMem_mix : (s.setMem m).mix = s.mix := rfl
@[simp] theorem setMem_omMix : (s.setMem m).omMix = s.omMix := rfl
@[simp] theorem setMem_p : (s.setMem m).p = s.p := rfl
@[simp] theorem setMem_mem : (s.setMem m).mem = m := rfl
@[simp] theorem setMem_scratch : (s.setMem m).scratch = s.scratch := rfl
@[simp] theorem setMem_queue : (s.setMem m).queue = s.queue := rfl
@[simp] theorem setMem_cur : (s.setMem m).cur = s.cur := rfl
@[simp] theorem setMem_turns : (s.setMem m).turns = s.turns := rfl
@[simp] theorem setMem_rdata : (s.setMem m).rdata = s.rdata := rfl
@[simp] theorem setMem_freeCtr : (s.setMem m).freeCtr = s.freeCtr := rfl

end

/-! ### `State.setScratch` -/

section
variable (s : State) (x : Scratch)

@[simp] theorem setScratch_hw : (s.setScratch x).hw = s.hw := rfl
@[simp] theorem setScratch_initDone : (s.setScratch x).initDone = s.initDone := rfl
@[simp] theorem setScratch_faulted : (s.setScratch x).faulted = s.faulted := rfl
@[simp] theorem setScratch_doneBit : (s.setScratch x).doneBit = s.doneBit := rfl
@[simp] theorem setScratch_hcollBit : (s.setScratch x).hcollBit = s.hcollBit := rfl
@[simp] theorem setScratch_irqEn : (s.setScratch x).irqEn = s.irqEn := rfl
@[simp] theorem setScratch_cause : (s.setScratch x).cause = s.cause := rfl
@[simp] theorem setScratch_cmdcnt : (s.setScratch x).cmdcnt = s.cmdcnt := rfl
@[simp] theorem setScratch_log2n : (s.setScratch x).log2n = s.log2n := rfl
@[simp] theorem setScratch_faultCmd : (s.setScratch x).faultCmd = s.faultCmd := rfl
@[simp] theorem setScratch_cmd0 : (s.setScratch x).cmd0 = s.cmd0 := rfl
@[simp] theorem setScratch_cmd1 : (s.setScratch x).cmd1 = s.cmd1 := rfl
@[simp] theorem setScratch_cmd2 : (s.setScratch x).cmd2 = s.cmd2 := rfl
@[simp] theorem setScratch_ratio : (s.setScratch x).ratio = s.ratio := rfl
@[simp] theorem setScratch_invRatio : (s.setScratch x).invRatio = s.invRatio := rfl
@[simp] theorem setScratch_beta : (s.setScratch x).beta = s.beta := rfl
@[simp] theorem setScratch_mix : (s.setScratch x).mix = s.mix := rfl
@[simp] theorem setScratch_omMix : (s.setScratch x).omMix = s.omMix := rfl
@[simp] theorem setScratch_p : (s.setScratch x).p = s.p := rfl
@[simp] theorem setScratch_mem : (s.setScratch x).mem = s.mem := rfl
@[simp] theorem setScratch_scratch : (s.setScratch x).scratch = x := rfl
@[simp] theorem setScratch_queue : (s.setScratch x).queue = s.queue := rfl
@[simp] theorem setScratch_cur : (s.setScratch x).cur = s.cur := rfl
@[simp] theorem setScratch_turns : (s.setScratch x).turns = s.turns := rfl
@[simp] theorem setScratch_rdata : (s.setScratch x).rdata = s.rdata := rfl
@[simp] theorem setScratch_freeCtr : (s.setScratch x).freeCtr = s.freeCtr := rfl

end

/-! ### `State.setPtr` -/

section
variable (s : State) (pr : Fin 8) (v : Nat)

@[simp] theorem setPtr_hw : (s.setPtr pr v).hw = s.hw := rfl
@[simp] theorem setPtr_initDone : (s.setPtr pr v).initDone = s.initDone := rfl
@[simp] theorem setPtr_faulted : (s.setPtr pr v).faulted = s.faulted := rfl
@[simp] theorem setPtr_doneBit : (s.setPtr pr v).doneBit = s.doneBit := rfl
@[simp] theorem setPtr_hcollBit : (s.setPtr pr v).hcollBit = s.hcollBit := rfl
@[simp] theorem setPtr_irqEn : (s.setPtr pr v).irqEn = s.irqEn := rfl
@[simp] theorem setPtr_cause : (s.setPtr pr v).cause = s.cause := rfl
@[simp] theorem setPtr_cmdcnt : (s.setPtr pr v).cmdcnt = s.cmdcnt := rfl
@[simp] theorem setPtr_log2n : (s.setPtr pr v).log2n = s.log2n := rfl
@[simp] theorem setPtr_faultCmd : (s.setPtr pr v).faultCmd = s.faultCmd := rfl
@[simp] theorem setPtr_cmd0 : (s.setPtr pr v).cmd0 = s.cmd0 := rfl
@[simp] theorem setPtr_cmd1 : (s.setPtr pr v).cmd1 = s.cmd1 := rfl
@[simp] theorem setPtr_cmd2 : (s.setPtr pr v).cmd2 = s.cmd2 := rfl
@[simp] theorem setPtr_ratio : (s.setPtr pr v).ratio = s.ratio := rfl
@[simp] theorem setPtr_invRatio : (s.setPtr pr v).invRatio = s.invRatio := rfl
@[simp] theorem setPtr_beta : (s.setPtr pr v).beta = s.beta := rfl
@[simp] theorem setPtr_mix : (s.setPtr pr v).mix = s.mix := rfl
@[simp] theorem setPtr_omMix : (s.setPtr pr v).omMix = s.omMix := rfl
@[simp] theorem setPtr_p : (s.setPtr pr v).p = s.p.set pr.val (BitVec.ofNat 16 v) pr.isLt := rfl
@[simp] theorem setPtr_mem : (s.setPtr pr v).mem = s.mem := rfl
@[simp] theorem setPtr_scratch : (s.setPtr pr v).scratch = s.scratch := rfl
@[simp] theorem setPtr_queue : (s.setPtr pr v).queue = s.queue := rfl
@[simp] theorem setPtr_cur : (s.setPtr pr v).cur = s.cur := rfl
@[simp] theorem setPtr_turns : (s.setPtr pr v).turns = s.turns := rfl
@[simp] theorem setPtr_rdata : (s.setPtr pr v).rdata = s.rdata := rfl
@[simp] theorem setPtr_freeCtr : (s.setPtr pr v).freeCtr = s.freeCtr := rfl

end

/-! ### `State.advance` -/

section
variable (s : State) (pr : Fin 8) (lg adv : Nat)

@[simp] theorem advance_hw : (s.advance pr lg adv).hw = s.hw := rfl
@[simp] theorem advance_initDone : (s.advance pr lg adv).initDone = s.initDone := rfl
@[simp] theorem advance_faulted : (s.advance pr lg adv).faulted = s.faulted := rfl
@[simp] theorem advance_doneBit : (s.advance pr lg adv).doneBit = s.doneBit := rfl
@[simp] theorem advance_hcollBit : (s.advance pr lg adv).hcollBit = s.hcollBit := rfl
@[simp] theorem advance_irqEn : (s.advance pr lg adv).irqEn = s.irqEn := rfl
@[simp] theorem advance_cause : (s.advance pr lg adv).cause = s.cause := rfl
@[simp] theorem advance_cmdcnt : (s.advance pr lg adv).cmdcnt = s.cmdcnt := rfl
@[simp] theorem advance_log2n : (s.advance pr lg adv).log2n = s.log2n := rfl
@[simp] theorem advance_faultCmd : (s.advance pr lg adv).faultCmd = s.faultCmd := rfl
@[simp] theorem advance_cmd0 : (s.advance pr lg adv).cmd0 = s.cmd0 := rfl
@[simp] theorem advance_cmd1 : (s.advance pr lg adv).cmd1 = s.cmd1 := rfl
@[simp] theorem advance_cmd2 : (s.advance pr lg adv).cmd2 = s.cmd2 := rfl
@[simp] theorem advance_ratio : (s.advance pr lg adv).ratio = s.ratio := rfl
@[simp] theorem advance_invRatio : (s.advance pr lg adv).invRatio = s.invRatio := rfl
@[simp] theorem advance_beta : (s.advance pr lg adv).beta = s.beta := rfl
@[simp] theorem advance_mix : (s.advance pr lg adv).mix = s.mix := rfl
@[simp] theorem advance_omMix : (s.advance pr lg adv).omMix = s.omMix := rfl
@[simp] theorem advance_p : (s.advance pr lg adv).p = s.p.set pr.val (BitVec.ofNat 16 ((headOf s pr lg + adv) % 2 ^ lg)) pr.isLt := rfl
@[simp] theorem advance_mem : (s.advance pr lg adv).mem = s.mem := rfl
@[simp] theorem advance_scratch : (s.advance pr lg adv).scratch = s.scratch := rfl
@[simp] theorem advance_queue : (s.advance pr lg adv).queue = s.queue := rfl
@[simp] theorem advance_cur : (s.advance pr lg adv).cur = s.cur := rfl
@[simp] theorem advance_turns : (s.advance pr lg adv).turns = s.turns := rfl
@[simp] theorem advance_rdata : (s.advance pr lg adv).rdata = s.rdata := rfl
@[simp] theorem advance_freeCtr : (s.advance pr lg adv).freeCtr = s.freeCtr := rfl

end

/-! ### `State.endCommand` -/

section
variable (s : State)

@[simp] theorem endCommand_hw : (s.endCommand).hw = s.hw := rfl
@[simp] theorem endCommand_initDone : (s.endCommand).initDone = s.initDone := rfl
@[simp] theorem endCommand_faulted : (s.endCommand).faulted = s.faulted := rfl
@[simp] theorem endCommand_doneBit : (s.endCommand).doneBit = s.doneBit := rfl
@[simp] theorem endCommand_hcollBit : (s.endCommand).hcollBit = s.hcollBit := rfl
@[simp] theorem endCommand_irqEn : (s.endCommand).irqEn = s.irqEn := rfl
@[simp] theorem endCommand_cause : (s.endCommand).cause = s.cause := rfl
@[simp] theorem endCommand_cmdcnt : (s.endCommand).cmdcnt = s.cmdcnt := rfl
@[simp] theorem endCommand_log2n : (s.endCommand).log2n = s.log2n := rfl
@[simp] theorem endCommand_faultCmd : (s.endCommand).faultCmd = s.faultCmd := rfl
@[simp] theorem endCommand_cmd0 : (s.endCommand).cmd0 = s.cmd0 := rfl
@[simp] theorem endCommand_cmd1 : (s.endCommand).cmd1 = s.cmd1 := rfl
@[simp] theorem endCommand_cmd2 : (s.endCommand).cmd2 = s.cmd2 := rfl
@[simp] theorem endCommand_ratio : (s.endCommand).ratio = s.ratio := rfl
@[simp] theorem endCommand_invRatio : (s.endCommand).invRatio = s.invRatio := rfl
@[simp] theorem endCommand_beta : (s.endCommand).beta = s.beta := rfl
@[simp] theorem endCommand_mix : (s.endCommand).mix = s.mix := rfl
@[simp] theorem endCommand_omMix : (s.endCommand).omMix = s.omMix := rfl
@[simp] theorem endCommand_p : (s.endCommand).p = s.p := rfl
@[simp] theorem endCommand_mem : (s.endCommand).mem = s.mem := rfl
@[simp] theorem endCommand_scratch : (s.endCommand).scratch = s.scratch := rfl
@[simp] theorem endCommand_queue : (s.endCommand).queue = s.queue := rfl
@[simp] theorem endCommand_cur : (s.endCommand).cur = none := rfl
@[simp] theorem endCommand_turns : (s.endCommand).turns = s.turns := rfl
@[simp] theorem endCommand_rdata : (s.endCommand).rdata = s.rdata := rfl
@[simp] theorem endCommand_freeCtr : (s.endCommand).freeCtr = s.freeCtr := rfl

end

/-! ### `State.retire` -/

section
variable (s : State)

@[simp] theorem retire_hw : (s.retire).hw = s.hw := rfl
@[simp] theorem retire_initDone : (s.retire).initDone = s.initDone := rfl
@[simp] theorem retire_faulted : (s.retire).faulted = s.faulted := rfl
@[simp] theorem retire_doneBit : (s.retire).doneBit = (s.doneBit || s.queue.isEmpty) := rfl
@[simp] theorem retire_hcollBit : (s.retire).hcollBit = s.hcollBit := rfl
@[simp] theorem retire_irqEn : (s.retire).irqEn = s.irqEn := rfl
@[simp] theorem retire_cause : (s.retire).cause = s.cause := rfl
@[simp] theorem retire_cmdcnt : (s.retire).cmdcnt = s.cmdcnt + 1#32 := rfl
@[simp] theorem retire_log2n : (s.retire).log2n = s.log2n := rfl
@[simp] theorem retire_faultCmd : (s.retire).faultCmd = s.faultCmd := rfl
@[simp] theorem retire_cmd0 : (s.retire).cmd0 = s.cmd0 := rfl
@[simp] theorem retire_cmd1 : (s.retire).cmd1 = s.cmd1 := rfl
@[simp] theorem retire_cmd2 : (s.retire).cmd2 = s.cmd2 := rfl
@[simp] theorem retire_ratio : (s.retire).ratio = s.ratio := rfl
@[simp] theorem retire_invRatio : (s.retire).invRatio = s.invRatio := rfl
@[simp] theorem retire_beta : (s.retire).beta = s.beta := rfl
@[simp] theorem retire_mix : (s.retire).mix = s.mix := rfl
@[simp] theorem retire_omMix : (s.retire).omMix = s.omMix := rfl
@[simp] theorem retire_p : (s.retire).p = s.p := rfl
@[simp] theorem retire_mem : (s.retire).mem = s.mem := rfl
@[simp] theorem retire_scratch : (s.retire).scratch = s.scratch := rfl
@[simp] theorem retire_queue : (s.retire).queue = s.queue := rfl
@[simp] theorem retire_cur : (s.retire).cur = none := rfl
@[simp] theorem retire_turns : (s.retire).turns = s.turns := rfl
@[simp] theorem retire_rdata : (s.retire).rdata = s.rdata := rfl
@[simp] theorem retire_freeCtr : (s.retire).freeCtr = s.freeCtr := rfl

end

/-! ### `State.abort` -/

section
variable (s : State)

@[simp] theorem abort_hw : (s.abort).hw = s.hw := rfl
@[simp] theorem abort_initDone : (s.abort).initDone = s.initDone := rfl
@[simp] theorem abort_faulted : (s.abort).faulted = s.faulted := rfl
@[simp] theorem abort_doneBit : (s.abort).doneBit = s.doneBit := rfl
@[simp] theorem abort_hcollBit : (s.abort).hcollBit = s.hcollBit := rfl
@[simp] theorem abort_irqEn : (s.abort).irqEn = s.irqEn := rfl
@[simp] theorem abort_cause : (s.abort).cause = s.cause := rfl
@[simp] theorem abort_cmdcnt : (s.abort).cmdcnt = s.cmdcnt := rfl
@[simp] theorem abort_log2n : (s.abort).log2n = s.log2n := rfl
@[simp] theorem abort_faultCmd : (s.abort).faultCmd = s.faultCmd := rfl
@[simp] theorem abort_cmd0 : (s.abort).cmd0 = s.cmd0 := rfl
@[simp] theorem abort_cmd1 : (s.abort).cmd1 = s.cmd1 := rfl
@[simp] theorem abort_cmd2 : (s.abort).cmd2 = s.cmd2 := rfl
@[simp] theorem abort_ratio : (s.abort).ratio = s.ratio := rfl
@[simp] theorem abort_invRatio : (s.abort).invRatio = s.invRatio := rfl
@[simp] theorem abort_beta : (s.abort).beta = s.beta := rfl
@[simp] theorem abort_mix : (s.abort).mix = s.mix := rfl
@[simp] theorem abort_omMix : (s.abort).omMix = s.omMix := rfl
@[simp] theorem abort_p : (s.abort).p = s.p := rfl
@[simp] theorem abort_mem : (s.abort).mem = s.mem := rfl
@[simp] theorem abort_scratch : (s.abort).scratch = s.scratch := rfl
@[simp] theorem abort_queue : (s.abort).queue = [] := rfl
@[simp] theorem abort_cur : (s.abort).cur = s.cur := rfl
@[simp] theorem abort_turns : (s.abort).turns = s.turns := rfl
@[simp] theorem abort_rdata : (s.abort).rdata = s.rdata := rfl
@[simp] theorem abort_freeCtr : (s.abort).freeCtr = s.freeCtr := rfl

end

/-! ### `State.enqueue` -/

section
variable (s : State) (c : Cmd)

@[simp] theorem enqueue_hw : (s.enqueue c).hw = s.hw := rfl
@[simp] theorem enqueue_initDone : (s.enqueue c).initDone = s.initDone := rfl
@[simp] theorem enqueue_faulted : (s.enqueue c).faulted = s.faulted := rfl
@[simp] theorem enqueue_doneBit : (s.enqueue c).doneBit = s.doneBit := rfl
@[simp] theorem enqueue_hcollBit : (s.enqueue c).hcollBit = s.hcollBit := rfl
@[simp] theorem enqueue_irqEn : (s.enqueue c).irqEn = s.irqEn := rfl
@[simp] theorem enqueue_cause : (s.enqueue c).cause = s.cause := rfl
@[simp] theorem enqueue_cmdcnt : (s.enqueue c).cmdcnt = s.cmdcnt := rfl
@[simp] theorem enqueue_log2n : (s.enqueue c).log2n = s.log2n := rfl
@[simp] theorem enqueue_faultCmd : (s.enqueue c).faultCmd = s.faultCmd := rfl
@[simp] theorem enqueue_cmd0 : (s.enqueue c).cmd0 = s.cmd0 := rfl
@[simp] theorem enqueue_cmd1 : (s.enqueue c).cmd1 = s.cmd1 := rfl
@[simp] theorem enqueue_cmd2 : (s.enqueue c).cmd2 = s.cmd2 := rfl
@[simp] theorem enqueue_ratio : (s.enqueue c).ratio = s.ratio := rfl
@[simp] theorem enqueue_invRatio : (s.enqueue c).invRatio = s.invRatio := rfl
@[simp] theorem enqueue_beta : (s.enqueue c).beta = s.beta := rfl
@[simp] theorem enqueue_mix : (s.enqueue c).mix = s.mix := rfl
@[simp] theorem enqueue_omMix : (s.enqueue c).omMix = s.omMix := rfl
@[simp] theorem enqueue_p : (s.enqueue c).p = s.p := rfl
@[simp] theorem enqueue_mem : (s.enqueue c).mem = s.mem := rfl
@[simp] theorem enqueue_scratch : (s.enqueue c).scratch = s.scratch := rfl
@[simp] theorem enqueue_queue : (s.enqueue c).queue = s.queue ++ [c] := rfl
@[simp] theorem enqueue_cur : (s.enqueue c).cur = s.cur := rfl
@[simp] theorem enqueue_turns : (s.enqueue c).turns = s.turns := rfl
@[simp] theorem enqueue_rdata : (s.enqueue c).rdata = s.rdata := rfl
@[simp] theorem enqueue_freeCtr : (s.enqueue c).freeCtr = s.freeCtr := rfl

end

/-! ### `State.clearStaging` -/

section
variable (s : State)

@[simp] theorem clearStaging_hw : (s.clearStaging).hw = s.hw := rfl
@[simp] theorem clearStaging_initDone : (s.clearStaging).initDone = s.initDone := rfl
@[simp] theorem clearStaging_faulted : (s.clearStaging).faulted = s.faulted := rfl
@[simp] theorem clearStaging_doneBit : (s.clearStaging).doneBit = s.doneBit := rfl
@[simp] theorem clearStaging_hcollBit : (s.clearStaging).hcollBit = s.hcollBit := rfl
@[simp] theorem clearStaging_irqEn : (s.clearStaging).irqEn = s.irqEn := rfl
@[simp] theorem clearStaging_cause : (s.clearStaging).cause = s.cause := rfl
@[simp] theorem clearStaging_cmdcnt : (s.clearStaging).cmdcnt = s.cmdcnt := rfl
@[simp] theorem clearStaging_log2n : (s.clearStaging).log2n = s.log2n := rfl
@[simp] theorem clearStaging_faultCmd : (s.clearStaging).faultCmd = s.faultCmd := rfl
@[simp] theorem clearStaging_cmd0 : (s.clearStaging).cmd0 = 0#32 := rfl
@[simp] theorem clearStaging_cmd1 : (s.clearStaging).cmd1 = 0#32 := rfl
@[simp] theorem clearStaging_cmd2 : (s.clearStaging).cmd2 = 0#32 := rfl
@[simp] theorem clearStaging_ratio : (s.clearStaging).ratio = s.ratio := rfl
@[simp] theorem clearStaging_invRatio : (s.clearStaging).invRatio = s.invRatio := rfl
@[simp] theorem clearStaging_beta : (s.clearStaging).beta = s.beta := rfl
@[simp] theorem clearStaging_mix : (s.clearStaging).mix = s.mix := rfl
@[simp] theorem clearStaging_omMix : (s.clearStaging).omMix = s.omMix := rfl
@[simp] theorem clearStaging_p : (s.clearStaging).p = s.p := rfl
@[simp] theorem clearStaging_mem : (s.clearStaging).mem = s.mem := rfl
@[simp] theorem clearStaging_scratch : (s.clearStaging).scratch = s.scratch := rfl
@[simp] theorem clearStaging_queue : (s.clearStaging).queue = s.queue := rfl
@[simp] theorem clearStaging_cur : (s.clearStaging).cur = s.cur := rfl
@[simp] theorem clearStaging_turns : (s.clearStaging).turns = s.turns := rfl
@[simp] theorem clearStaging_rdata : (s.clearStaging).rdata = s.rdata := rfl
@[simp] theorem clearStaging_freeCtr : (s.clearStaging).freeCtr = s.freeCtr := rfl

end

/-! ### `setRatio` -/

section
variable (s : State) (v : Word)

@[simp] theorem setRatio_hw : (setRatio v s).hw = s.hw := rfl
@[simp] theorem setRatio_initDone : (setRatio v s).initDone = s.initDone := rfl
@[simp] theorem setRatio_faulted : (setRatio v s).faulted = s.faulted := rfl
@[simp] theorem setRatio_doneBit : (setRatio v s).doneBit = s.doneBit := rfl
@[simp] theorem setRatio_hcollBit : (setRatio v s).hcollBit = s.hcollBit := rfl
@[simp] theorem setRatio_irqEn : (setRatio v s).irqEn = s.irqEn := rfl
@[simp] theorem setRatio_cause : (setRatio v s).cause = s.cause := rfl
@[simp] theorem setRatio_cmdcnt : (setRatio v s).cmdcnt = s.cmdcnt := rfl
@[simp] theorem setRatio_log2n : (setRatio v s).log2n = s.log2n := rfl
@[simp] theorem setRatio_faultCmd : (setRatio v s).faultCmd = s.faultCmd := rfl
@[simp] theorem setRatio_cmd0 : (setRatio v s).cmd0 = s.cmd0 := rfl
@[simp] theorem setRatio_cmd1 : (setRatio v s).cmd1 = s.cmd1 := rfl
@[simp] theorem setRatio_cmd2 : (setRatio v s).cmd2 = s.cmd2 := rfl
@[simp] theorem setRatio_ratio : (setRatio v s).ratio = clampRatio v := rfl
@[simp] theorem setRatio_invRatio : (setRatio v s).invRatio = fdiv fONE (clampRatio v) := rfl
@[simp] theorem setRatio_beta : (setRatio v s).beta = s.beta := rfl
@[simp] theorem setRatio_mix : (setRatio v s).mix = s.mix := rfl
@[simp] theorem setRatio_omMix : (setRatio v s).omMix = s.omMix := rfl
@[simp] theorem setRatio_p : (setRatio v s).p = s.p := rfl
@[simp] theorem setRatio_mem : (setRatio v s).mem = s.mem := rfl
@[simp] theorem setRatio_scratch : (setRatio v s).scratch = s.scratch := rfl
@[simp] theorem setRatio_queue : (setRatio v s).queue = s.queue := rfl
@[simp] theorem setRatio_cur : (setRatio v s).cur = s.cur := rfl
@[simp] theorem setRatio_turns : (setRatio v s).turns = s.turns := rfl
@[simp] theorem setRatio_rdata : (setRatio v s).rdata = s.rdata := rfl
@[simp] theorem setRatio_freeCtr : (setRatio v s).freeCtr = s.freeCtr := rfl

end

/-! ### `setBeta` -/

section
variable (s : State) (v : Word)

@[simp] theorem setBeta_hw : (setBeta v s).hw = s.hw := rfl
@[simp] theorem setBeta_initDone : (setBeta v s).initDone = s.initDone := rfl
@[simp] theorem setBeta_faulted : (setBeta v s).faulted = s.faulted := rfl
@[simp] theorem setBeta_doneBit : (setBeta v s).doneBit = s.doneBit := rfl
@[simp] theorem setBeta_hcollBit : (setBeta v s).hcollBit = s.hcollBit := rfl
@[simp] theorem setBeta_irqEn : (setBeta v s).irqEn = s.irqEn := rfl
@[simp] theorem setBeta_cause : (setBeta v s).cause = s.cause := rfl
@[simp] theorem setBeta_cmdcnt : (setBeta v s).cmdcnt = s.cmdcnt := rfl
@[simp] theorem setBeta_log2n : (setBeta v s).log2n = s.log2n := rfl
@[simp] theorem setBeta_faultCmd : (setBeta v s).faultCmd = s.faultCmd := rfl
@[simp] theorem setBeta_cmd0 : (setBeta v s).cmd0 = s.cmd0 := rfl
@[simp] theorem setBeta_cmd1 : (setBeta v s).cmd1 = s.cmd1 := rfl
@[simp] theorem setBeta_cmd2 : (setBeta v s).cmd2 = s.cmd2 := rfl
@[simp] theorem setBeta_ratio : (setBeta v s).ratio = s.ratio := rfl
@[simp] theorem setBeta_invRatio : (setBeta v s).invRatio = s.invRatio := rfl
@[simp] theorem setBeta_beta : (setBeta v s).beta = v := rfl
@[simp] theorem setBeta_mix : (setBeta v s).mix = s.mix := rfl
@[simp] theorem setBeta_omMix : (setBeta v s).omMix = s.omMix := rfl
@[simp] theorem setBeta_p : (setBeta v s).p = s.p := rfl
@[simp] theorem setBeta_mem : (setBeta v s).mem = s.mem := rfl
@[simp] theorem setBeta_scratch : (setBeta v s).scratch = s.scratch := rfl
@[simp] theorem setBeta_queue : (setBeta v s).queue = s.queue := rfl
@[simp] theorem setBeta_cur : (setBeta v s).cur = s.cur := rfl
@[simp] theorem setBeta_turns : (setBeta v s).turns = s.turns := rfl
@[simp] theorem setBeta_rdata : (setBeta v s).rdata = s.rdata := rfl
@[simp] theorem setBeta_freeCtr : (setBeta v s).freeCtr = s.freeCtr := rfl

end

/-! ### `setMix` -/

section
variable (s : State) (v : Word)

@[simp] theorem setMix_hw : (setMix v s).hw = s.hw := rfl
@[simp] theorem setMix_initDone : (setMix v s).initDone = s.initDone := rfl
@[simp] theorem setMix_faulted : (setMix v s).faulted = s.faulted := rfl
@[simp] theorem setMix_doneBit : (setMix v s).doneBit = s.doneBit := rfl
@[simp] theorem setMix_hcollBit : (setMix v s).hcollBit = s.hcollBit := rfl
@[simp] theorem setMix_irqEn : (setMix v s).irqEn = s.irqEn := rfl
@[simp] theorem setMix_cause : (setMix v s).cause = s.cause := rfl
@[simp] theorem setMix_cmdcnt : (setMix v s).cmdcnt = s.cmdcnt := rfl
@[simp] theorem setMix_log2n : (setMix v s).log2n = s.log2n := rfl
@[simp] theorem setMix_faultCmd : (setMix v s).faultCmd = s.faultCmd := rfl
@[simp] theorem setMix_cmd0 : (setMix v s).cmd0 = s.cmd0 := rfl
@[simp] theorem setMix_cmd1 : (setMix v s).cmd1 = s.cmd1 := rfl
@[simp] theorem setMix_cmd2 : (setMix v s).cmd2 = s.cmd2 := rfl
@[simp] theorem setMix_ratio : (setMix v s).ratio = s.ratio := rfl
@[simp] theorem setMix_invRatio : (setMix v s).invRatio = s.invRatio := rfl
@[simp] theorem setMix_beta : (setMix v s).beta = s.beta := rfl
@[simp] theorem setMix_mix : (setMix v s).mix = clampMix v := rfl
@[simp] theorem setMix_omMix : (setMix v s).omMix = fsub fONE (clampMix v) := rfl
@[simp] theorem setMix_p : (setMix v s).p = s.p := rfl
@[simp] theorem setMix_mem : (setMix v s).mem = s.mem := rfl
@[simp] theorem setMix_scratch : (setMix v s).scratch = s.scratch := rfl
@[simp] theorem setMix_queue : (setMix v s).queue = s.queue := rfl
@[simp] theorem setMix_cur : (setMix v s).cur = s.cur := rfl
@[simp] theorem setMix_turns : (setMix v s).turns = s.turns := rfl
@[simp] theorem setMix_rdata : (setMix v s).rdata = s.rdata := rfl
@[simp] theorem setMix_freeCtr : (setMix v s).freeCtr = s.freeCtr := rfl

end

/-! ### `initEffect` -/

section
variable (s : State) (cnt : Nat)

@[simp] theorem initEffect_hw : (initEffect cnt s).hw = s.hw := rfl
@[simp] theorem initEffect_initDone : (initEffect cnt s).initDone = true := rfl
@[simp] theorem initEffect_faulted : (initEffect cnt s).faulted = s.faulted := rfl
@[simp] theorem initEffect_doneBit : (initEffect cnt s).doneBit = s.doneBit := rfl
@[simp] theorem initEffect_hcollBit : (initEffect cnt s).hcollBit = s.hcollBit := rfl
@[simp] theorem initEffect_irqEn : (initEffect cnt s).irqEn = s.irqEn := rfl
@[simp] theorem initEffect_cause : (initEffect cnt s).cause = s.cause := rfl
@[simp] theorem initEffect_cmdcnt : (initEffect cnt s).cmdcnt = s.cmdcnt := rfl
@[simp] theorem initEffect_log2n : (initEffect cnt s).log2n = BitVec.ofNat 5 cnt := rfl
@[simp] theorem initEffect_faultCmd : (initEffect cnt s).faultCmd = s.faultCmd := rfl
@[simp] theorem initEffect_cmd0 : (initEffect cnt s).cmd0 = s.cmd0 := rfl
@[simp] theorem initEffect_cmd1 : (initEffect cnt s).cmd1 = s.cmd1 := rfl
@[simp] theorem initEffect_cmd2 : (initEffect cnt s).cmd2 = s.cmd2 := rfl
@[simp] theorem initEffect_ratio : (initEffect cnt s).ratio = s.ratio := rfl
@[simp] theorem initEffect_invRatio : (initEffect cnt s).invRatio = s.invRatio := rfl
@[simp] theorem initEffect_beta : (initEffect cnt s).beta = s.beta := rfl
@[simp] theorem initEffect_mix : (initEffect cnt s).mix = s.mix := rfl
@[simp] theorem initEffect_omMix : (initEffect cnt s).omMix = s.omMix := rfl
@[simp] theorem initEffect_p : (initEffect cnt s).p = s.p := rfl
@[simp] theorem initEffect_mem : (initEffect cnt s).mem = s.mem := rfl
@[simp] theorem initEffect_scratch : (initEffect cnt s).scratch = s.scratch := rfl
@[simp] theorem initEffect_queue : (initEffect cnt s).queue = s.queue := rfl
@[simp] theorem initEffect_cur : (initEffect cnt s).cur = s.cur := rfl
@[simp] theorem initEffect_turns : (initEffect cnt s).turns = s.turns := rfl
@[simp] theorem initEffect_rdata : (initEffect cnt s).rdata = s.rdata := rfl
@[simp] theorem initEffect_freeCtr : (initEffect cnt s).freeCtr = s.freeCtr := rfl

end

/-! ### The pointer registers -/

/-- The register written reads the value mod 2^16; every other register reads as before (R23, R14). -/
theorem get_setPtr (s : State) (pr q : Fin 8) (v : Nat) :
    (s.setPtr pr v).p.get q = if q = pr then BitVec.ofNat 16 v else s.p.get q := by
  by_cases h : q = pr
  · subst h; simp [State.setPtr, Vector.get_eq_getElem]
  · have h' : pr.val ≠ q.val := fun e => h (Fin.ext e.symm)
    simp [State.setPtr, Vector.get_eq_getElem, h, h']

/-- A command that advances the head leaves it below the buffer's length (R100). -/
theorem ptr_advance (s : State) (pr : Fin 8) (lg adv : Nat) (h : lg ≤ 16) :
    (s.advance pr lg adv).ptr pr = (headOf s pr lg + adv) % 2 ^ lg := by
  have hlt : (headOf s pr lg + adv) % 2 ^ lg < 2 ^ 16 :=
    lt_of_lt_of_le (Nat.mod_lt _ (by positivity)) (Nat.pow_le_pow_right (by norm_num) h)
  simp only [State.ptr, State.advance, get_setPtr, if_true, BitVec.toNat_ofNat]
  exact Nat.mod_eq_of_lt hlt

end Sys2Proof.Machine
end

