-- ==== Sys2Proof/Laws/Ops.lean ====
section
/-! SUPPORT. What each shared operation can do, said once: fault entry, completion, the engine's turn,
the push, the host's accesses, and a step. -/

namespace Sys2Proof.Machine

/-! ### Fault entry (R121) -/

/-- Fault entry: the first fault is recorded, a later one only empties the queue. -/
theorem faultEntry_eq (s : State) (cause : Cause) (c : Cmd) :
    (s.faulted = true ∧ s.faultEntry cause c = s.abort) ∨
    (s.faulted = false ∧ s.faultEntry cause c =
      { s with faulted := true, cause := cause, faultCmd := c, queue := [] }) := by
  cases h : s.faulted
  · right; simp [State.faultEntry, h]
  · left; simp [State.faultEntry, h, State.abort]

@[simp] theorem faultEntry_faulted (s : State) (cause : Cause) (c : Cmd) :
    (s.faultEntry cause c).faulted = true := by
  rcases faultEntry_eq s cause c with ⟨h, e⟩ | ⟨h, e⟩ <;> simp [e, h]

@[simp] theorem faultEntry_queue (s : State) (cause : Cause) (c : Cmd) :
    (s.faultEntry cause c).queue = [] := by
  rcases faultEntry_eq s cause c with ⟨_, e⟩ | ⟨_, e⟩ <;> simp [e]

@[simp] theorem faultEntry_mem (s : State) (cause : Cause) (c : Cmd) :
    (s.faultEntry cause c).mem = s.mem := by
  rcases faultEntry_eq s cause c with ⟨_, e⟩ | ⟨_, e⟩ <;> simp [e]

@[simp] theorem faultEntry_p (s : State) (cause : Cause) (c : Cmd) :
    (s.faultEntry cause c).p = s.p := by
  rcases faultEntry_eq s cause c with ⟨_, e⟩ | ⟨_, e⟩ <;> simp [e]

@[simp] theorem faultEntry_cmdcnt (s : State) (cause : Cause) (c : Cmd) :
    (s.faultEntry cause c).cmdcnt = s.cmdcnt := by
  rcases faultEntry_eq s cause c with ⟨_, e⟩ | ⟨_, e⟩ <;> simp [e]

@[simp] theorem faultEntry_doneBit (s : State) (cause : Cause) (c : Cmd) :
    (s.faultEntry cause c).doneBit = s.doneBit := by
  rcases faultEntry_eq s cause c with ⟨_, e⟩ | ⟨_, e⟩ <;> simp [e]

/-! ### Completion (R50) -/

theorem complete_of_ok {i : Instr} {s : State} (effect : State → State) (h : check i s = .none) :
    complete i effect s = .next (effect s).retire := by simp [complete, h]

theorem complete_of_cause {i : Instr} {s : State} (effect : State → State) (h : check i s ≠ .none) :
    complete i effect s = .next (s.faultEntry (check i s) (encode i)).endCommand := by
  unfold complete
  split
  · next hc => exact absurd hc h
  · rfl

/-- A complete step that answers a next state either did the command's effect, with Check passed, or
entered a fault. -/
theorem complete_cases {i : Instr} {effect : State → State} {s t : State}
    (h : complete i effect s = .next t) :
    (check i s = .none ∧ t = (effect s).retire) ∨
    (check i s ≠ .none ∧ t = (s.faultEntry (check i s) (encode i)).endCommand) := by
  by_cases hc : check i s = .none
  · rw [complete_of_ok effect hc] at h
    exact .inl ⟨hc, by injection h with h; exact h.symm⟩
  · rw [complete_of_cause effect hc] at h
    exact .inr ⟨hc, by injection h with h; exact h.symm⟩

/-- The effect of a command, as `exec` gives it to `complete`. -/
def effectOf : Instr → State → State
  | .nop => id
  | .setparam cnt imm => setparamEffect cnt imm
  | .setp pr cnt => fun s => s.setPtr pr cnt
  | .fill a cnt imm => fun s => s.setMem (fillMem a cnt imm s.mem)
  | .copy a b cnt => fun s => s.setMem (copyMem a b cnt s.mem)
  | .init cnt => initEffect cnt
  | .fftFwd a b => fftFwdEffect a b
  | .fftInv a b => fftInvEffect a b
  | .fftshift a => fun s => s.setMem (fftshiftMem s.nPoints a s.mem)
  | .mag a b => fun s => s.setMem (magMem s.nPoints a b s.mem)
  | .phase a b => fun s => s.setMem (phaseMem s.nPoints a b s.mem)
  | .polar a b c => fun s => s.setMem (polarMem s.nPoints a b c s.mem)
  | .princarg a b cnt => fun s => s.setMem (princargMem a b cnt s.mem)
  | .phasediff a b c cnt => fun s => s.setMem (phasediffMem a b c cnt s.mem)
  | .pvUnwrap a b c cnt => fun s => s.setMem (pvUnwrapMem s.nPoints a b c cnt s.invRatio s.mem)
  | .vmul a b c cnt => fun s => s.setMem (vmulMem a b c cnt s.mem)
  | .zpad a b cnt => fun s => s.setMem (zpadMem s.nPoints a b cnt s.mem)
  | .histPush pr lg cnt a b => fun s =>
    (s.setMem (histPushMem lg cnt a b (headOf s pr lg) s.mem)).advance pr lg cnt
  | .histExtract pr lg cnt b c => fun s =>
    s.setMem (histExtractMem lg cnt b c (headOf s pr lg) s.mem)
  | .olaAdd pr lg cnt a b d => fun s =>
    (s.setMem (olaAddMem lg cnt a b (headOf s pr lg) s.mem)).advance pr lg d
  | .olaDrain pr lg cnt b c => fun s =>
    (s.setMem (olaDrainMem lg cnt b c (headOf s pr lg) s.mem)).advance pr lg cnt
  | .olaDrainMix pr lg cnt a b c => fun s =>
    (s.setMem (olaDrainMixMem lg cnt a b c (headOf s pr lg) s.mix s.omMix s.mem)).advance pr lg cnt
  | .splitCarry a b c cnt => fun s => s.setMem (splitCarryMem a b c cnt s.mem)
  | .cmul a b c => fun s => s.setMem (cmulMem s.nPoints a b c s.mem)
  | .cmatApply a b c => fun s => s.setMem (cmatApplyMem s.nPoints a b c s.mem)
  | .cmatInv a b => fun s => s.setMem (cmatInvMem s.nPoints a b s.beta s.mem)

/-- Every command's meaning is its complete step over its effect. -/
theorem exec_eq_complete (i : Instr) (s : State) : exec i s = complete i (effectOf i) s := by
  cases i <;> rfl

/-- No command ends in a stop. -/
theorem exec_isNext (i : Instr) (s : State) : ∃ t, exec i s = .next t := by
  rw [exec_eq_complete]
  by_cases hc : check i s = .none
  · exact ⟨_, complete_of_ok _ hc⟩
  · exact ⟨_, complete_of_cause _ hc⟩

/-- What a command that answers a next state did. -/
theorem exec_cases {i : Instr} {s t : State} (h : exec i s = .next t) :
    (check i s = .none ∧ t = (effectOf i s).retire) ∨
    (check i s ≠ .none ∧ t = (s.faultEntry (check i s) (encode i)).endCommand) :=
  complete_cases (exec_eq_complete i s ▸ h)

/-! ### The engine's turn (R49, R50) -/

theorem engineStep_isNext (s : State) : ∃ t, engineStep s = .next t := by
  unfold engineStep
  split
  · unfold completeStep
    split
    · exact ⟨_, rfl⟩
    · exact exec_isNext _ _
  · split <;> exact ⟨_, rfl⟩

/-- What an engine turn did: completed a command, faulted on an illegal encoding, issued the head of
the queue, or kept every piece of state. -/
theorem engineStep_cases {s t : State} (h : engineStep s = .next t) :
    (∃ c i, s.cur = some c ∧ decode c = .ok i ∧ exec i s = .next t) ∨
    (∃ c why, s.cur = some c ∧ decode c = .illegal why ∧
      t = (s.faultEntry (causeOf why) c).endCommand) ∨
    (∃ c q, s.cur = none ∧ s.faulted = false ∧ s.queue = c :: q ∧
      t = { s with cur := some c, queue := q }) ∨
    (s.cur = none ∧ (s.faulted = true ∨ s.queue = []) ∧ t = s) := by
  unfold engineStep at h
  split at h
  · next c hc =>
    unfold completeStep at h
    split at h
    · next why hd =>
      right; left
      injection h with h
      exact ⟨c, why, hc, hd, h.symm⟩
    · next i hd => exact .inl ⟨c, i, hc, hd, h⟩
  · next hc =>
    right; right
    split at h
    · next hf =>
      injection h with h
      exact .inr ⟨hc, .inl hf, h.symm⟩
    · next hf =>
      injection h with h
      cases hq : s.queue with
      | nil => exact .inr ⟨hc, .inr rfl, by simp [← h, State.issue, hq]⟩
      | cons c q =>
        exact .inl ⟨c, q, hc, by simpa using hf, rfl, by simp [← h, State.issue, hq]⟩

/-! ### The host's turn (20_memory.md section 4) -/

/-- What a push did: dropped, overflowed, or appended, and the staging registers cleared (R35). -/
theorem push_cases (s : State) (v : Word) :
    (s.faulted = true ∧ s.push v = s.clearStaging) ∨
    (s.faulted = false ∧ s.queue.length = s.hw.cqDepth ∧ s.push v =
      { s with faulted := true, cause := .cqOverflow, faultCmd := cmdOfWords s.cmd0 s.cmd1 s.cmd2 v,
               queue := [] }.clearStaging) ∨
    (s.faulted = false ∧ s.queue.length ≠ s.hw.cqDepth ∧ s.push v =
      (s.enqueue (cmdOfWords s.cmd0 s.cmd1 s.cmd2 v)).clearStaging) := by
  cases hf : s.faulted
  · by_cases hq : s.queue.length = s.hw.cqDepth
    · right; left
      exact ⟨rfl, hq, by simp [State.push, State.cqLevel, hf, hq, State.faultEntry]⟩
    · right; right
      exact ⟨rfl, hq, by simp [State.push, State.cqLevel, hf, hq]⟩
  · left
    exact ⟨rfl, by simp [State.push, hf]⟩

/-- A host access that answers a next state was an aligned 32-bit one inside the region (R55, R59). -/
theorem hostAccess_cases {s t : State} {addr bytes : Nat} {effect : Nat → State}
    (h : hostAccess s addr bytes effect = .next t) :
    s.hw.base ≤ addr ∧ addr < s.hw.base + regionSize ∧ bytes = 4 ∧ (addr - s.hw.base) % 4 = 0 ∧
    t = effect (addr - s.hw.base) := by
  unfold hostAccess at h
  split at h
  · cases h
  · next h1 =>
    split at h
    · cases h
    · next h2 =>
      injection h with h
      push Not at h1 h2
      exact ⟨h1.1, h1.2, h2.1, h2.2, h.symm⟩

/-- What a host turn that answers a next state did. -/
theorem hostStep_cases {s t : State} {mv : HostMove} (h : hostStep mv s = .next t) :
    (∃ addr, mv = .read addr 4 ∧ t = s.readAt (addr - s.hw.base)) ∨
    (∃ addr v, mv = .write addr 4 v ∧ t = s.writeAt (addr - s.hw.base) v) ∨
    (∃ dmem, mv = .assertReset dmem ∧ t = s.resetInput dmem) := by
  cases mv with
  | read addr bytes =>
    obtain ⟨_, _, rfl, _, rfl⟩ := hostAccess_cases h
    exact .inl ⟨addr, rfl, rfl⟩
  | write addr bytes v =>
    obtain ⟨_, _, rfl, _, rfl⟩ :=
      hostAccess_cases (s := s) (effect := fun off => s.writeAt off v) h
    exact .inr (.inl ⟨addr, v, rfl, rfl⟩)
  | assertReset dmem =>
    injection h with h
    exact .inr (.inr ⟨dmem, rfl, h.symm⟩)
  | secondMaster => cases h

/-! ### A step -/

/-- A step that answers a next state was an engine turn or a host turn, in the state whose list of
turns no longer holds it. -/
theorem step_cases {s t : State} (h : step s = .next t) :
    (s.turns = [] ∧ engineStep s = .next t) ∨
    (∃ ts, s.turns = .engine :: ts ∧ engineStep { s with turns := ts } = .next t) ∨
    (∃ mv ts, s.turns = .host mv :: ts ∧ hostStep mv { s with turns := ts } = .next t) := by
  unfold step at h
  split at h
  · next hs => exact .inl ⟨hs, h⟩
  · next ts hs => exact .inr (.inl ⟨ts, hs, h⟩)
  · next mv ts hs => exact .inr (.inr ⟨mv, ts, hs, h⟩)

end Sys2Proof.Machine
end

