-- ==== Sys2Proof/Laws/Effects.lean ====
section
/-! SUPPORT. The laws of the commands' effects: loops as passes, circular slots, and that every effect
keeps the canonical form of DMEM. -/

namespace Sys2Proof.Machine

/-! ### Check (R120), and the two ways a command completes (R50) -/

theorem inRange_iff (s : State) (e : Nat × Nat) : inRange s.dmemWords e = true ↔ s.fits e.1 e.2 := by
  simp [inRange, State.fits]

theorem not_badCircular_iff (lg cnt : Nat) : badCircular lg cnt = false ↔ circularLegal lg cnt := by
  simp [badCircular, circularLegal]

/-- When Check finds no cause. -/
theorem check_eq_none_iff (i : Instr) (s : State) :
    check i s = .none ↔ (usesN i = true → s.initDone = true) ∧
      badField s.hw.log2nMax s.nPoints i = false ∧ ∀ e ∈ extents s.nPoints i, s.fits e.1 e.2 := by
  have e : (extents s.nPoints i).all (inRange s.dmemWords) = true ↔
      ∀ e ∈ extents s.nPoints i, s.fits e.1 e.2 := by
    simp only [List.all_eq_true, inRange_iff]
  rw [← e, check]
  cases usesN i <;> cases s.initDone <;> cases badField s.hw.log2nMax s.nPoints i <;>
    cases (extents s.nPoints i).all (inRange s.dmemWords) <;> simp

/-- Step 3 of Check. -/
theorem check_eq_notInit {i : Instr} {s : State} (hn : usesN i = true) (hi : s.initDone = false) :
    check i s = .notInit := by simp [check, hn, hi]

/-- Step 4 of Check. -/
theorem check_eq_fieldRange {i : Instr} {s : State} (hn : usesN i = true → s.initDone = true)
    (hb : badField s.hw.log2nMax s.nPoints i = true) : check i s = .fieldRange := by
  cases h : usesN i <;> simp_all [check]

/-- Step 5 of Check. -/
theorem check_eq_addrRange {i : Instr} {s : State} (hn : usesN i = true → s.initDone = true)
    (hb : badField s.hw.log2nMax s.nPoints i = false)
    (he : ¬ ∀ e ∈ extents s.nPoints i, s.fits e.1 e.2) : check i s = .addrRange := by
  have h : check i s ≠ .none := fun h => he ((check_eq_none_iff i s).1 h).2.2
  have hn' : (usesN i && !s.initDone) = false := by cases hu : usesN i <;> simp_all
  unfold check at h ⊢
  simp only [hn', hb] at h ⊢
  split <;> simp_all

/-- A command whose Check passes finishes with its effect. -/
theorem finishes_of_check {i : Instr} {s t : State} (h : check i s = .none)
    (ht : (effectOf i s).retire =
      { t with cmdcnt := s.cmdcnt + 1#32, doneBit := s.doneBit || s.queue.isEmpty, cur := none }) :
    finishes i s t := by
  rw [finishes, exec_eq_complete, complete_of_ok _ h, ht]

/-- A command whose Check finds a cause faults with it. -/
theorem faultsWith_of_check {i : Instr} {s : State} {cause : Cause} (h : check i s = cause)
    (hc : cause ≠ .none) : faultsWith i s cause := by
  rw [faultsWith, exec_eq_complete, complete_of_cause _ (h ▸ hc), h]
  unfold State.faultEntry State.endCommand
  split <;> rfl

/-! ### Loops as passes (R16) -/

/-- A loop makes of its memory what its passes make of it, in ascending order. -/
theorem passes_loop {n : Nat} {pass : Nat → Mem → Mem → Prop} {body : Nat → Mem → Mem} {m : Mem}
    (h : ∀ j m, j < n → pass j m (body j m)) : Passes n pass m (loop n body m) :=
  ⟨fun j => loop j body m, rfl, rfl, fun j hj => h j _ hj⟩

theorem keepsOutside_setWord (m : Mem) (a : Nat) (v : Word) :
    keepsOutside m (setWord m a v) fun x => x = a := by
  intro x hx
  simp [memByte_setWord, hx]

theorem writesOne_setWord (m : Mem) (a : Nat) (v : Word) : writesOne a v m (setWord m a v) :=
  ⟨memWord_setWord_same m a v, keepsOutside_setWord m a v⟩

theorem writesTwo_setWord (m : Mem) (a : Nat) (v : Word) (b : Nat) (w : Word) :
    writesTwo a v b w m (setWord (setWord m a v) b w) := by
  refine ⟨memWord_setWord_same _ b w, fun h => ?_, fun x hx => ?_⟩
  · rw [memWord_setWord_of_ne _ _ h, memWord_setWord_same]
  · push Not at hx
    simp [memByte_setWord, hx.1, hx.2]

/-! ### Circular slots (R100) -/

theorem slotAt_natCast (b lg h i : Nat) : slotAt b lg h (i : Int) = b + (h + i) % 2 ^ lg := by
  have e : (h : Int) + (i : Int) = ((h + i : Nat) : Int) := by push_cast; ring
  simp only [slotAt, e, ← Int.natCast_mod, Int.toNat_natCast]

/-- The slots HIST_EXTRACT reads, counted forward from the one CNT places before the head (R104). -/
theorem slotAt_back (b lg h i cnt : Nat) (hc : cnt ≤ 2 ^ lg) :
    slotAt b lg h ((i : Int) - (cnt : Int)) = b + (h + (2 ^ lg - cnt) + i) % 2 ^ lg := by
  have e : ((h : Int) + ((i : Int) - (cnt : Int))) % ((2 ^ lg : Nat) : Int) =
      ((h + (2 ^ lg - cnt) + i : Nat) : Int) % ((2 ^ lg : Nat) : Int) := by
    have : ((h + (2 ^ lg - cnt) + i : Nat) : Int) =
        ((h : Int) + ((i : Int) - (cnt : Int))) + ((2 ^ lg : Nat) : Int) := by
      rw [Nat.cast_add, Nat.cast_add, Nat.cast_sub hc]; ring
    rw [this, Int.add_emod_right]
  rw [slotAt, e, ← Int.natCast_mod, Int.toNat_natCast]

/-! ### What no effect touches -/

theorem setparamEffect_cases (cnt : Nat) (imm : Word) (s : State) :
    setparamEffect cnt imm s = setRatio imm s ∨ setparamEffect cnt imm s = setBeta imm s ∨
    setparamEffect cnt imm s = setMix imm s ∨ setparamEffect cnt imm s = s := by
  match cnt with
  | 0 => exact .inl rfl
  | 1 => exact .inr (.inl rfl)
  | 2 => exact .inr (.inr (.inl rfl))
  | _ + 3 => exact .inr (.inr (.inr rfl))

@[simp] theorem effectOf_hw (i : Instr) (s : State) : (effectOf i s).hw = s.hw := by
  cases i with
  | setparam cnt imm => rcases setparamEffect_cases cnt imm s with h | h | h | h <;> simp [effectOf, h]
  | _ => rfl

@[simp] theorem effectOf_faulted (i : Instr) (s : State) : (effectOf i s).faulted = s.faulted := by
  cases i with
  | setparam cnt imm => rcases setparamEffect_cases cnt imm s with h | h | h | h <;> simp [effectOf, h]
  | _ => rfl

@[simp] theorem effectOf_doneBit (i : Instr) (s : State) : (effectOf i s).doneBit = s.doneBit := by
  cases i with
  | setparam cnt imm => rcases setparamEffect_cases cnt imm s with h | h | h | h <;> simp [effectOf, h]
  | _ => rfl

@[simp] theorem effectOf_hcollBit (i : Instr) (s : State) : (effectOf i s).hcollBit = s.hcollBit := by
  cases i with
  | setparam cnt imm => rcases setparamEffect_cases cnt imm s with h | h | h | h <;> simp [effectOf, h]
  | _ => rfl

@[simp] theorem effectOf_irqEn (i : Instr) (s : State) : (effectOf i s).irqEn = s.irqEn := by
  cases i with
  | setparam cnt imm => rcases setparamEffect_cases cnt imm s with h | h | h | h <;> simp [effectOf, h]
  | _ => rfl

@[simp] theorem effectOf_cause (i : Instr) (s : State) : (effectOf i s).cause = s.cause := by
  cases i with
  | setparam cnt imm => rcases setparamEffect_cases cnt imm s with h | h | h | h <;> simp [effectOf, h]
  | _ => rfl

@[simp] theorem effectOf_cmdcnt (i : Instr) (s : State) : (effectOf i s).cmdcnt = s.cmdcnt := by
  cases i with
  | setparam cnt imm => rcases setparamEffect_cases cnt imm s with h | h | h | h <;> simp [effectOf, h]
  | _ => rfl

@[simp] theorem effectOf_faultCmd (i : Instr) (s : State) : (effectOf i s).faultCmd = s.faultCmd := by
  cases i with
  | setparam cnt imm => rcases setparamEffect_cases cnt imm s with h | h | h | h <;> simp [effectOf, h]
  | _ => rfl

@[simp] theorem effectOf_cmd0 (i : Instr) (s : State) : (effectOf i s).cmd0 = s.cmd0 := by
  cases i with
  | setparam cnt imm => rcases setparamEffect_cases cnt imm s with h | h | h | h <;> simp [effectOf, h]
  | _ => rfl

@[simp] theorem effectOf_cmd1 (i : Instr) (s : State) : (effectOf i s).cmd1 = s.cmd1 := by
  cases i with
  | setparam cnt imm => rcases setparamEffect_cases cnt imm s with h | h | h | h <;> simp [effectOf, h]
  | _ => rfl

@[simp] theorem effectOf_cmd2 (i : Instr) (s : State) : (effectOf i s).cmd2 = s.cmd2 := by
  cases i with
  | setparam cnt imm => rcases setparamEffect_cases cnt imm s with h | h | h | h <;> simp [effectOf, h]
  | _ => rfl

@[simp] theorem effectOf_queue (i : Instr) (s : State) : (effectOf i s).queue = s.queue := by
  cases i with
  | setparam cnt imm => rcases setparamEffect_cases cnt imm s with h | h | h | h <;> simp [effectOf, h]
  | _ => rfl

@[simp] theorem effectOf_cur (i : Instr) (s : State) : (effectOf i s).cur = s.cur := by
  cases i with
  | setparam cnt imm => rcases setparamEffect_cases cnt imm s with h | h | h | h <;> simp [effectOf, h]
  | _ => rfl

@[simp] theorem effectOf_turns (i : Instr) (s : State) : (effectOf i s).turns = s.turns := by
  cases i with
  | setparam cnt imm => rcases setparamEffect_cases cnt imm s with h | h | h | h <;> simp [effectOf, h]
  | _ => rfl

@[simp] theorem effectOf_rdata (i : Instr) (s : State) : (effectOf i s).rdata = s.rdata := by
  cases i with
  | setparam cnt imm => rcases setparamEffect_cases cnt imm s with h | h | h | h <;> simp [effectOf, h]
  | _ => rfl

@[simp] theorem effectOf_freeCtr (i : Instr) (s : State) : (effectOf i s).freeCtr = s.freeCtr := by
  cases i with
  | setparam cnt imm => rcases setparamEffect_cases cnt imm s with h | h | h | h <;> simp [effectOf, h]
  | _ => rfl

/-- Only SETPARAM and INIT write the parameter register file (R43). -/
theorem effectOf_params (i : Instr) (s : State) (h1 : ∀ id v, i ≠ .setparam id v) (h2 : ∀ k, i ≠ .init k) :
    (effectOf i s).ratio = s.ratio ∧ (effectOf i s).invRatio = s.invRatio ∧
    (effectOf i s).beta = s.beta ∧ (effectOf i s).mix = s.mix ∧ (effectOf i s).omMix = s.omMix ∧
    (effectOf i s).log2n = s.log2n ∧ (effectOf i s).initDone = s.initDone := by
  cases i with
  | setparam cnt imm => exact absurd rfl (h1 cnt imm)
  | init cnt => exact absurd rfl (h2 cnt)
  | _ => exact ⟨rfl, rfl, rfl, rfl, rfl, rfl, rfl⟩

/-- Only SETP and the circular commands that move a head write the pointer registers (R23). -/
theorem effectOf_p (i : Instr) (s : State) (h : (effectOf i s).p ≠ s.p) :
    (∃ pr k, i = .setp pr k) ∨ (∃ pr lg k a b, i = .histPush pr lg k a b) ∨
    (∃ pr lg k a b d, i = .olaAdd pr lg k a b d) ∨ (∃ pr lg k b c, i = .olaDrain pr lg k b c) ∨
    (∃ pr lg k a b c, i = .olaDrainMix pr lg k a b c) := by
  cases i with
  | setparam cnt imm =>
    rcases setparamEffect_cases cnt imm s with e | e | e | e <;> simp [effectOf, e] at h
  | setp pr k => exact .inl ⟨pr, k, rfl⟩
  | histPush pr lg k a b => exact .inr (.inl ⟨pr, lg, k, a, b, rfl⟩)
  | olaAdd pr lg k a b d => exact .inr (.inr (.inl ⟨pr, lg, k, a, b, d, rfl⟩))
  | olaDrain pr lg k b c => exact .inr (.inr (.inr (.inl ⟨pr, lg, k, b, c, rfl⟩)))
  | olaDrainMix pr lg k a b c => exact .inr (.inr (.inr (.inr ⟨pr, lg, k, a, b, c, rfl⟩)))
  | _ => exact absurd rfl h

/-! ### Every effect keeps the canonical form -/

/-- A loop whose every pass keeps the canonical form keeps it. -/
theorem wf_loop {n : Nat} {body : Nat → Mem → Mem} {m : Mem}
    (hb : ∀ i m, m.wf = true → (body i m).wf = true) (h : m.wf = true) : (loop n body m).wf = true :=
  loop_keeps (P := fun m : Mem => m.wf = true) (fun i m _ h => hb i m h) h

section
variable {m : Mem} (h : m.wf = true)
include h

theorem wf_zWrite (n z k : Nat) (v : Cplx) : (zWrite n m z k v).wf = true :=
  wf_setWord _ _ (wf_setWord _ _ h)

theorem wf_fillMem (a cnt : Nat) (imm : Word) : (fillMem a cnt imm m).wf = true :=
  wf_loop (fun _ _ h => wf_setWord _ _ h) h

theorem wf_copyMem (a b cnt : Nat) : (copyMem a b cnt m).wf = true :=
  wf_loop (fun _ _ h => wf_setWord _ _ h) h

theorem wf_storeSpectrum (l b : Nat) (x : Scratch) : (storeSpectrum l b x m).wf = true :=
  wf_loop (fun _ _ h => wf_zWrite h _ _ _ _) h

theorem wf_storeReal (l b : Nat) (x : Scratch) : (storeReal l b x m).wf = true :=
  wf_loop (fun _ _ h => wf_setWord _ _ h) h

theorem wf_fftshiftMem (n a : Nat) : (fftshiftMem n a m).wf = true :=
  wf_loop (fun _ _ h => wf_setWord _ _ (wf_setWord _ _ h)) h

theorem wf_magMem (n a b : Nat) : (magMem n a b m).wf = true :=
  wf_loop (fun _ _ h => wf_setWord _ _ h) h

theorem wf_phaseMem (n a b : Nat) : (phaseMem n a b m).wf = true :=
  wf_loop (fun _ _ h => wf_setWord _ _ h) h

theorem wf_polarMem (n a b c : Nat) : (polarMem n a b c m).wf = true :=
  wf_loop (fun _ _ h => wf_zWrite h _ _ _ _) h

theorem wf_princargMem (a b cnt : Nat) : (princargMem a b cnt m).wf = true :=
  wf_loop (fun _ _ h => wf_setWord _ _ h) h

theorem wf_phasediffMem (a b c cnt : Nat) : (phasediffMem a b c cnt m).wf = true :=
  wf_loop (fun _ _ h => wf_setWord _ _ h) h

theorem wf_pvUnwrapMem (n a b c hop : Nat) (ir : Word) : (pvUnwrapMem n a b c hop ir m).wf = true :=
  wf_loop (fun _ _ h => wf_setWord _ _ (wf_setWord _ _ h)) h

theorem wf_vmulMem (a b c cnt : Nat) : (vmulMem a b c cnt m).wf = true :=
  wf_loop (fun _ _ h => wf_setWord _ _ h) h

theorem wf_zpadMem (n a b cnt : Nat) : (zpadMem n a b cnt m).wf = true :=
  wf_loop (fun _ _ h => wf_setWord _ _ h) h

theorem wf_histPushMem (lg cnt a b hd : Nat) : (histPushMem lg cnt a b hd m).wf = true :=
  wf_loop (fun _ _ h => wf_setWord _ _ h) h

theorem wf_histExtractMem (lg cnt b c hd : Nat) : (histExtractMem lg cnt b c hd m).wf = true :=
  wf_loop (fun _ _ h => wf_setWord _ _ h) h

theorem wf_olaAddMem (lg cnt a b hd : Nat) : (olaAddMem lg cnt a b hd m).wf = true :=
  wf_loop (fun _ _ h => wf_setWord _ _ h) h

theorem wf_olaDrainMem (lg cnt b c hd : Nat) : (olaDrainMem lg cnt b c hd m).wf = true :=
  wf_loop (fun _ _ h => wf_setWord _ _ (wf_setWord _ _ h)) h

theorem wf_olaDrainMixMem (lg cnt a b c hd : Nat) (mix om : Word) :
    (olaDrainMixMem lg cnt a b c hd mix om m).wf = true :=
  wf_loop (fun _ _ h => wf_setWord _ _ (wf_setWord _ _ h)) h

theorem wf_splitCarryMem (a b c cnt : Nat) : (splitCarryMem a b c cnt m).wf = true :=
  wf_loop (fun _ _ h => wf_setWord _ _ (wf_setWord _ _ h)) h

theorem wf_cmulMem (n a b c : Nat) : (cmulMem n a b c m).wf = true :=
  wf_loop (fun _ _ h => wf_zWrite h _ _ _ _) h

theorem wf_cmatApplyMem (n a b c : Nat) : (cmatApplyMem n a b c m).wf = true :=
  wf_loop (fun _ _ h => wf_zWrite (wf_zWrite h _ _ _ _) _ _ _ _) h

theorem wf_cmatInvMem (n a b : Nat) (beta : Word) : (cmatInvMem n a b beta m).wf = true :=
  wf_loop (fun _ _ h => wf_zWrite (wf_zWrite (wf_zWrite (wf_zWrite h _ _ _ _) _ _ _ _) _ _ _ _) _ _ _ _) h

theorem wf_freeExtent (n : Nat) (e : Nat × Nat) : (freeExtent n e m).wf = true :=
  wf_loop (fun _ _ h => wf_setWord _ _ h) h

omit h in
theorem wf_freeExtents (n : Nat) (es : List (Nat × Nat)) {m : Mem} (h : m.wf = true) :
    (freeExtents n es m).wf = true := by
  induction es generalizing m with
  | nil => exact h
  | cons e es ih => exact ih (wf_freeExtent h n e)

end

/-- The effect of every command keeps the canonical form of DMEM. -/
theorem wf_effectOf (i : Instr) (s : State) (h : s.mem.wf = true) : (effectOf i s).mem.wf = true := by
  cases i with
  | nop => exact h
  | setparam cnt imm =>
    match cnt with
    | 0 | 1 | 2 | _ + 3 => exact h
  | setp pr cnt => exact h
  | fill a cnt imm => exact wf_fillMem h _ _ _
  | copy a b cnt => exact wf_copyMem h _ _ _
  | init cnt => exact h
  | fftFwd a b => exact wf_storeSpectrum h _ _ _
  | fftInv a b => exact wf_storeReal h _ _ _
  | fftshift a => exact wf_fftshiftMem h _ _
  | mag a b => exact wf_magMem h _ _ _
  | phase a b => exact wf_phaseMem h _ _ _
  | polar a b c => exact wf_polarMem h _ _ _ _
  | princarg a b cnt => exact wf_princargMem h _ _ _
  | phasediff a b c cnt => exact wf_phasediffMem h _ _ _ _
  | pvUnwrap a b c cnt => exact wf_pvUnwrapMem h _ _ _ _ _ _
  | vmul a b c cnt => exact wf_vmulMem h _ _ _ _
  | zpad a b cnt => exact wf_zpadMem h _ _ _ _
  | histPush pr lg cnt a b => exact wf_histPushMem h _ _ _ _ _
  | histExtract pr lg cnt b c => exact wf_histExtractMem h _ _ _ _ _
  | olaAdd pr lg cnt a b d => exact wf_olaAddMem h _ _ _ _ _
  | olaDrain pr lg cnt b c => exact wf_olaDrainMem h _ _ _ _ _
  | olaDrainMix pr lg cnt a b c => exact wf_olaDrainMixMem h _ _ _ _ _ _ _ _
  | splitCarry a b c cnt => exact wf_splitCarryMem h _ _ _ _
  | cmul a b c => exact wf_cmulMem h _ _ _ _
  | cmatApply a b c => exact wf_cmatApplyMem h _ _ _ _
  | cmatInv a b => exact wf_cmatInvMem h _ _ _ _

end Sys2Proof.Machine
end

