-- ==== Sys2Proof/Laws/Encoding.lean ====
section
/-! SUPPORT. The laws of the encodings: a command's unused fields are zero exactly when its bits under the
mask of its format are (30_encoding.md R74, R75). -/

namespace Sys2Proof.Machine

/-- The bits at the listed places. -/
def maskOf : List Place → Cmd
  | [] => 0#128
  | x :: l => ((BitVec.allOnes x.2).setWidth 128 <<< x.1) ||| maskOf l

theorem getLsbD_maskOf (l : List Place) (i : Nat) :
    (maskOf l).getLsbD i = true ↔ i < 128 ∧ ∃ x ∈ l, x.1 ≤ i ∧ i < x.1 + x.2 := by
  induction l with
  | nil => simp [maskOf]
  | cons x l ih =>
    simp only [maskOf, BitVec.getLsbD_or, Bool.or_eq_true, ih, List.mem_cons, exists_eq_or_imp]
    have : ((BitVec.setWidth 128 (BitVec.allOnes x.2)) <<< x.1).getLsbD i = true ↔
        i < 128 ∧ x.1 ≤ i ∧ i < x.1 + x.2 := by
      simp
      omega
    rw [this]
    tauto

/-- A field is zero exactly when each of its bits is. -/
theorem field_zero_iff (c : Cmd) (lo w : Nat) :
    c.toNat / 2 ^ lo % 2 ^ w = 0 ↔ ∀ i, lo ≤ i → i < lo + w → c.getLsbD i = false := by
  constructor
  · intro h i h1 h2
    have h3 := congrArg (fun n => n.testBit (i - lo)) h
    simp only [Nat.testBit_mod_two_pow, Nat.testBit_div_two_pow, Nat.zero_testBit] at h3
    rw [show i - lo + lo = i by omega, decide_eq_true (show i - lo < w by omega), Bool.true_and] at h3
    exact h3
  · intro h
    apply Nat.eq_of_testBit_eq
    intro j
    simp only [Nat.testBit_mod_two_pow, Nat.testBit_div_two_pow, Nat.zero_testBit]
    by_cases hj : j < w
    · have := h (j + lo) (by omega) (by omega)
      rw [BitVec.getLsbD] at this
      simp [this]
    · simp [hj]

theorem and_maskOf_eq_zero_iff (c : Cmd) (l : List Place) :
    c &&& maskOf l = 0#128 ↔ ∀ x ∈ l, c.toNat / 2 ^ x.1 % 2 ^ x.2 = 0 := by
  simp only [field_zero_iff]
  constructor
  · intro h x hx i h1 h2
    by_cases hi : i < 128
    · have h3 := congrArg (fun v => v.getLsbD i) h
      simp only [BitVec.getLsbD_and, BitVec.getLsbD_zero] at h3
      rw [(getLsbD_maskOf l i).2 ⟨hi, x, hx, h1, h2⟩, Bool.and_true] at h3
      exact h3
    · exact BitVec.getLsbD_of_ge c i (by omega)
  · intro h
    apply BitVec.eq_of_getLsbD_eq
    intro i hi
    rw [BitVec.getLsbD_and, BitVec.getLsbD_zero]
    by_cases hm : (maskOf l).getLsbD i = true
    · obtain ⟨_, x, hx, h1, h2⟩ := (getLsbD_maskOf l i).1 hm
      rw [h x hx i h1 h2, Bool.false_and]
    · simp [hm]

/-- What an opcode's row says of the commands that hold the opcode, with the mask given by places. -/
theorem encodedAs_of_row {opc : Nat} {unused : List Place} {fmt : Format} {build : Fields → Instr}
    (hrow : opRow opc = some ⟨fmt, build⟩) (hmask : fmt.mustBeZero = maskOf unused) :
    encodedAs opc unused build := by
  intro c hc
  have ho : opcOf c = opc := by simpa [opcOf, field] using hc
  have hd : decode c = if c &&& maskOf unused ≠ 0#128 then .illegal .reservedField
      else .ok (build (fieldsOf c)) := by
    simp [decode, ho, hrow, hmask]
  rw [hd]
  refine ⟨fun h => if_neg ?_, ?_⟩
  · simpa using (and_maskOf_eq_zero_iff c unused).2 h
  · rintro ⟨x, hx, hne⟩
    exact if_pos fun h => hne ((and_maskOf_eq_zero_iff c unused).1 h x hx)

end Sys2Proof.Machine
end

