-- ==== Sys2Proof/Laws/HostMoves.lean ====
section
/-! SUPPORT. The laws of the host's moves: a defined access inside the region takes effect at its byte
offset (20_memory.md R55, R59). -/

namespace Sys2Proof.Machine

/-- A defined access at a byte offset of the region. -/
theorem hostAccess_at (s : State) {off : Nat} (effect : Nat → State) (h : off < 0x80000)
    (ha : off % 4 = 0) : hostAccess s (s.hw.base + off) 4 effect = .next (effect off) := by
  unfold hostAccess regionSize
  rw [if_neg (by omega), if_neg (by omega), Nat.add_sub_cancel_left]

theorem hostWrites_of {off : Nat} {v : Word} {s t : State} (h : off < 0x80000) (ha : off % 4 = 0)
    (ht : ∀ ts, State.writeAt { s with turns := ts } off v = { t with turns := ts }) :
    hostWrites off v s t := fun ts =>
  (hostAccess_at { s with turns := ts } (fun off => State.writeAt { s with turns := ts } off v) h ha).trans
    (congrArg _ (ht ts))

/-- A register write takes effect as the register table says. -/
theorem hostWrites_of_reg {off : Nat} {v : Word} {s t : State} (h : off < 0x40000) (ha : off % 4 = 0)
    (ht : ∀ ts, State.regWrite { s with turns := ts } off v = { t with turns := ts }) :
    hostWrites off v s t :=
  hostWrites_of (by omega) ha fun ts => by rw [State.writeAt, windowBase, if_pos h, ht]

theorem hostMoves_read_of {off : Nat} {s t : State} (h : off < 0x80000) (ha : off % 4 = 0)
    (ht : ∀ ts, State.readAt { s with turns := ts } off = { t with turns := ts }) :
    hostMoves (.read (s.hw.base + off) 4) s t := fun ts =>
  (hostAccess_at { s with turns := ts } (State.readAt { s with turns := ts }) h ha).trans
    (congrArg _ (ht ts))

/-- No register read depends on the turns to come. -/
theorem regRead_turns (s : State) (ts : List Turn) (off : Nat) :
    State.regRead { s with turns := ts } off = s.regRead off := by
  unfold State.regRead
  split <;> rfl

/-- A register read gives the value the register table says, and changes nothing else. -/
theorem hostReads_of_reg {off : Nat} {v : Word} {s : State} (h : off < 0x40000) (ha : off % 4 = 0)
    (hv : s.regRead off = v) : hostReads off s v :=
  hostMoves_read_of (by omega) ha fun ts => by
    rw [State.readAt, windowBase, if_pos h, regRead_turns, hv]

end Sys2Proof.Machine
end

