-- ==== Sys2Proof/Laws/PerInstr.lean ====
section
/-! SUPPORT. Per instruction: the opcode and the fields stand in the encoded command at the positions
of 30_encoding.md R72, unused fields zero (R74, R75, R76). -/

namespace Sys2Proof.Laws.FieldPositions

/-- Every field fits its width (R72). -/
structure Fit (f : Fields) : Prop where
  lg : f.lg < 2 ^ 5
  cnt : f.cnt < 2 ^ 16
  a : f.a < 2 ^ 16
  b : f.b < 2 ^ 16
  c : f.c < 2 ^ 16
  d : f.d < 2 ^ 16

/-- The value of a command packed from fields that fit. -/
theorem toNat_packFields (opc : Nat) (f : Fields) (ho : opc < 2 ^ 8) (h : Fit f) :
    (packFields opc f).toNat = opc + f.pr.val * 2 ^ 8 + f.lg * 2 ^ 11 + f.cnt * 2 ^ 16 +
      f.a * 2 ^ 32 + f.b * 2 ^ 48 + f.c * 2 ^ 64 + f.d * 2 ^ 80 + f.imm.toNat * 2 ^ 96 := by
  obtain ⟨h1, h2, h3, h4, h5, h6⟩ := h
  have hp := f.pr.isLt
  have hi := f.imm.isLt
  rw [packFields, BitVec.toNat_ofNat]
  apply Nat.mod_eq_of_lt
  omega

/-- The opcode of a packed command (R72). -/
theorem opcOf_packFields (opc : Nat) (f : Fields) (ho : opc < 2 ^ 8) (h : Fit f) :
    opcOf (packFields opc f) = opc := by
  rw [opcOf, field, toNat_packFields opc f ho h]
  have hp := f.pr.isLt
  omega

/-- The fields of a packed command (R72). -/
theorem fieldsOf_packFields (opc : Nat) (f : Fields) (ho : opc < 2 ^ 8) (h : Fit f) :
    fieldsOf (packFields opc f) = f := by
  have e := toNat_packFields opc f ho h
  obtain ⟨h1, h2, h3, h4, h5, h6⟩ := h
  obtain ⟨pr, lg, cnt, a, b, c, d, imm⟩ := f
  have hp := pr.isLt
  have hi := imm.isLt
  simp only [fieldsOf, field, e, Fields.mk.injEq]
  refine ⟨Fin.ext ?_, ?_, ?_, ?_, ?_, ?_, ?_, BitVec.eq_of_toNat_eq ?_⟩
  · simp only [Fin.ofNat]; omega
  · dsimp only at *; omega
  · dsimp only at *; omega
  · dsimp only at *; omega
  · dsimp only at *; omega
  · dsimp only at *; omega
  · dsimp only at *; omega
  · rw [BitVec.toNat_ofNat]; dsimp only at *; omega

/-- The encoded command holds the opcode and the fields of the instruction where R72 puts them. -/
def Statement (i : Instr) : Prop :=
  i.wf = true → opcOf (encode i) = i.opc ∧ fieldsOf (encode i) = i.fields

theorem opc_lt (i : Instr) : i.opc < 2 ^ 8 := by cases i <;> simp [Instr.opc]

/-- The fields of a well-formed instruction fit. -/
theorem fit_of_wf {i : Instr} (h : i.wf = true) : Fit i.fields := by
  cases i <;> simp [Instr.wf, fits16, fits5] at h <;> constructor <;>
    simp [Instr.fields, noFields] <;> omega

theorem of_wf (i : Instr) : Statement i :=
  fun h => ⟨opcOf_packFields _ _ (opc_lt i) (fit_of_wf h),
    fieldsOf_packFields _ _ (opc_lt i) (fit_of_wf h)⟩

theorem nop : Statement .nop := of_wf _
theorem setparam (cnt : Nat) (imm : Word) : Statement (.setparam cnt imm) := of_wf _
theorem setp (pr : Fin 8) (cnt : Nat) : Statement (.setp pr cnt) := of_wf _
theorem fill (a : Nat) (cnt : Nat) (imm : Word) : Statement (.fill a cnt imm) := of_wf _
theorem copy (a : Nat) (b : Nat) (cnt : Nat) : Statement (.copy a b cnt) := of_wf _
theorem init (cnt : Nat) : Statement (.init cnt) := of_wf _
theorem fftFwd (a : Nat) (b : Nat) : Statement (.fftFwd a b) := of_wf _
theorem fftInv (a : Nat) (b : Nat) : Statement (.fftInv a b) := of_wf _
theorem fftshift (a : Nat) : Statement (.fftshift a) := of_wf _
theorem mag (a : Nat) (b : Nat) : Statement (.mag a b) := of_wf _
theorem phase (a : Nat) (b : Nat) : Statement (.phase a b) := of_wf _
theorem polar (a : Nat) (b : Nat) (c : Nat) : Statement (.polar a b c) := of_wf _
theorem princarg (a : Nat) (b : Nat) (cnt : Nat) : Statement (.princarg a b cnt) := of_wf _
theorem phasediff (a : Nat) (b : Nat) (c : Nat) (cnt : Nat) : Statement (.phasediff a b c cnt) := of_wf _
theorem pvUnwrap (a : Nat) (b : Nat) (c : Nat) (cnt : Nat) : Statement (.pvUnwrap a b c cnt) := of_wf _
theorem vmul (a : Nat) (b : Nat) (c : Nat) (cnt : Nat) : Statement (.vmul a b c cnt) := of_wf _
theorem zpad (a : Nat) (b : Nat) (cnt : Nat) : Statement (.zpad a b cnt) := of_wf _
theorem histPush (pr : Fin 8) (lg : Nat) (cnt : Nat) (a : Nat) (b : Nat) : Statement (.histPush pr lg cnt a b) := of_wf _
theorem histExtract (pr : Fin 8) (lg : Nat) (cnt : Nat) (b : Nat) (c : Nat) : Statement (.histExtract pr lg cnt b c) := of_wf _
theorem olaAdd (pr : Fin 8) (lg : Nat) (cnt : Nat) (a : Nat) (b : Nat) (d : Nat) : Statement (.olaAdd pr lg cnt a b d) := of_wf _
theorem olaDrain (pr : Fin 8) (lg : Nat) (cnt : Nat) (b : Nat) (c : Nat) : Statement (.olaDrain pr lg cnt b c) := of_wf _
theorem olaDrainMix (pr : Fin 8) (lg : Nat) (cnt : Nat) (a : Nat) (b : Nat) (c : Nat) : Statement (.olaDrainMix pr lg cnt a b c) := of_wf _
theorem splitCarry (a : Nat) (b : Nat) (c : Nat) (cnt : Nat) : Statement (.splitCarry a b c cnt) := of_wf _
theorem cmul (a : Nat) (b : Nat) (c : Nat) : Statement (.cmul a b c) := of_wf _
theorem cmatApply (a : Nat) (b : Nat) (c : Nat) : Statement (.cmatApply a b c) := of_wf _
theorem cmatInv (a : Nat) (b : Nat) : Statement (.cmatInv a b) := of_wf _

end Sys2Proof.Laws.FieldPositions
end

