-- ==== Sys2Proof/Tests/Slice0.lean ====
section
/-! SUPPORT. Tests: ill-formed terms refused, words written out from the encodings, the examples of the
command rules one step each, and for every statement with hypotheses a state and operands that meet them,
at the boundaries where its clauses meet. Expected values come from the spec's examples. -/

namespace Sys2Proof.Tests

open Sys2Proof Sys2Proof.Machine

set_option Elab.async false

/-! ### Well-formedness (R72, R73) -/

theorem test_wf_setparam : (Instr.setparam 0x10000 0#32).wf = false := by decide
theorem test_wf_setp : (Instr.setp 7 0x10000).wf = false ∧ (Instr.setp 7 0xFFFF).wf = true := by decide
theorem test_wf_fill : (Instr.fill 0x10000 0 0#32).wf = false ∧ (Instr.fill 0 0x10000 0#32).wf = false := by
  decide
theorem test_wf_copy : (Instr.copy 0x10000 0 0).wf = false ∧ (Instr.copy 0 0x10000 0).wf = false ∧
    (Instr.copy 0 0 0x10000).wf = false := by decide
theorem test_wf_init : (Instr.init 0x10000).wf = false := by decide
theorem test_wf_two_addresses : [Instr.fftFwd 0x10000 0, .fftFwd 0 0x10000, .fftInv 0x10000 0,
    .fftInv 0 0x10000, .mag 0x10000 0, .mag 0 0x10000, .phase 0x10000 0, .phase 0 0x10000,
    .cmatInv 0x10000 0, .cmatInv 0 0x10000, .fftshift 0x10000].any Instr.wf = false := by decide
theorem test_wf_three_addresses : [Instr.polar 0x10000 0 0, .polar 0 0x10000 0, .polar 0 0 0x10000,
    .cmul 0x10000 0 0, .cmul 0 0x10000 0, .cmul 0 0 0x10000, .cmatApply 0x10000 0 0,
    .cmatApply 0 0x10000 0, .cmatApply 0 0 0x10000].any Instr.wf = false := by decide
theorem test_wf_counted : [Instr.princarg 0x10000 0 0, .princarg 0 0x10000 0, .princarg 0 0 0x10000,
    .zpad 0x10000 0 0, .zpad 0 0x10000 0, .zpad 0 0 0x10000].any Instr.wf = false := by decide
theorem test_wf_counted_three : [Instr.phasediff 0x10000 0 0 0, .phasediff 0 0x10000 0 0,
    .phasediff 0 0 0x10000 0, .phasediff 0 0 0 0x10000, .pvUnwrap 0x10000 0 0 0, .pvUnwrap 0 0x10000 0 0,
    .pvUnwrap 0 0 0x10000 0, .pvUnwrap 0 0 0 0x10000, .vmul 0x10000 0 0 0, .vmul 0 0x10000 0 0,
    .vmul 0 0 0x10000 0, .vmul 0 0 0 0x10000, .splitCarry 0x10000 0 0 0, .splitCarry 0 0x10000 0 0,
    .splitCarry 0 0 0x10000 0, .splitCarry 0 0 0 0x10000].any Instr.wf = false := by decide
theorem test_wf_circular : [Instr.histPush 0 32 0 0 0, .histPush 0 0 0x10000 0 0, .histPush 0 0 0 0x10000 0,
    .histPush 0 0 0 0 0x10000, .histExtract 0 32 0 0 0, .histExtract 0 0 0x10000 0 0,
    .histExtract 0 0 0 0x10000 0, .histExtract 0 0 0 0 0x10000, .olaDrain 0 32 0 0 0,
    .olaDrain 0 0 0x10000 0 0, .olaDrain 0 0 0 0x10000 0, .olaDrain 0 0 0 0 0x10000].any Instr.wf =
    false := by decide
theorem test_wf_circular_more : [Instr.olaAdd 0 32 0 0 0 0, .olaAdd 0 0 0x10000 0 0 0,
    .olaAdd 0 0 0 0x10000 0 0, .olaAdd 0 0 0 0 0x10000 0, .olaAdd 0 0 0 0 0 0x10000,
    .olaDrainMix 0 32 0 0 0 0, .olaDrainMix 0 0 0x10000 0 0 0, .olaDrainMix 0 0 0 0x10000 0 0,
    .olaDrainMix 0 0 0 0 0x10000 0, .olaDrainMix 0 0 0 0 0 0x10000].any Instr.wf = false := by decide
theorem test_wf_widest : (Instr.olaAdd 7 31 0xFFFF 0xFFFF 0xFFFF 0xFFFF).wf = true := by decide

/-! ### Words written out from the encodings (R71, R72, R74, R76) -/

/-- What four words decode to. -/
def decodeWords (w0 w1 w2 w3 : Word) : Decoded := decode (cmdOfWords w0 w1 w2 w3)

theorem test_decode_nop : decodeWords 0x00000000 0 0 0 = .ok .nop := by decide
theorem test_decode_setparam : decodeWords 0x00020001 0 0 0x3F000000 =
    .ok (.setparam 2 0x3F000000#32) := by decide
theorem test_decode_setp : decodeWords 0x00060302 0 0 0 = .ok (.setp 3 6) := by decide
theorem test_decode_fill : decodeWords 0x00040003 0x00000200 0 0x7FC00001 =
    .ok (.fill 0x200 4 0x7FC00001#32) := by decide
theorem test_decode_copy : decodeWords 0x00030004 0x00010000 0 0 = .ok (.copy 0 1 3) := by decide
theorem test_decode_init : decodeWords 0x00080010 0 0 0 = .ok (.init 8) := by decide
theorem test_decode_fftFwd : decodeWords 0x00000011 0x01000000 0 0 = .ok (.fftFwd 0 0x100) := by decide
theorem test_decode_fftInv : decodeWords 0x00000012 0x02000100 0 0 = .ok (.fftInv 0x100 0x200) := by decide
theorem test_decode_fftshift : decodeWords 0x00000013 0x0000FFFF 0 0 = .ok (.fftshift 0xFFFF) := by decide
theorem test_decode_mag : decodeWords 0x00000014 0x00020001 0 0 = .ok (.mag 1 2) := by decide
theorem test_decode_phase : decodeWords 0x00000015 0x00020001 0 0 = .ok (.phase 1 2) := by decide
theorem test_decode_polar : decodeWords 0x00000016 0x00020001 0x00000003 0 = .ok (.polar 1 2 3) := by decide
theorem test_decode_princarg : decodeWords 0x00040020 0x00020001 0 0 = .ok (.princarg 1 2 4) := by decide
theorem test_decode_phasediff : decodeWords 0x00040021 0x00020001 0x00000003 0 =
    .ok (.phasediff 1 2 3 4) := by decide
theorem test_decode_pvUnwrap : decodeWords 0x00400022 0x00020001 0x00000003 0 =
    .ok (.pvUnwrap 1 2 3 64) := by decide
theorem test_decode_vmul : decodeWords 0x00040030 0x00020001 0x00000003 0 = .ok (.vmul 1 2 3 4) := by decide
theorem test_decode_zpad : decodeWords 0x00040031 0x00020001 0 0 = .ok (.zpad 1 2 4) := by decide
theorem test_decode_histPush : decodeWords 0x00042932 0x00200010 0 0 =
    .ok (.histPush 1 5 4 0x10 0x20) := by decide
theorem test_decode_histExtract : decodeWords 0x00041833 0x00200000 0x00000030 0 =
    .ok (.histExtract 0 3 4 0x20 0x30) := by decide
theorem test_decode_olaAdd : decodeWords 0x00108734 0x03040102 0x05060000 0 =
    .ok (.olaAdd 7 16 0x10 0x102 0x304 0x506) := by decide
theorem test_decode_olaDrain : decodeWords 0x00021A35 0x00200000 0x00000030 0 =
    .ok (.olaDrain 2 3 2 0x20 0x30) := by decide
theorem test_decode_olaDrainMix : decodeWords 0x00021A36 0x00200010 0x00000030 0 =
    .ok (.olaDrainMix 2 3 2 0x10 0x20 0x30) := by decide
theorem test_decode_splitCarry : decodeWords 0x00040037 0x00020001 0x00000003 0 =
    .ok (.splitCarry 1 2 3 4) := by decide
theorem test_decode_cmul : decodeWords 0x00000040 0x00020001 0x00000003 0 = .ok (.cmul 1 2 3) := by decide
theorem test_decode_cmatApply : decodeWords 0x00000041 0x00020001 0x00000003 0 =
    .ok (.cmatApply 1 2 3) := by decide
theorem test_decode_cmatInv : decodeWords 0x00000042 0x00020001 0 0 = .ok (.cmatInv 1 2) := by decide

/-- A reserved opcode at each edge of the reserved ranges (R77). -/
theorem test_decode_reserved_opcodes : [0x05, 0x0F, 0x17, 0x1F, 0x23, 0x2F, 0x38, 0x3F, 0x43, 0xFF].all
    (fun op => decodeWords (BitVec.ofNat 32 op) 0 0 0 == .illegal .illegalOpcode) = true := by decide
/-- A non-zero unused field of each kind (R75). -/
theorem test_decode_reserved_fields :
    [decodeWords 0x00000100 0 0 0, decodeWords 0x00000801 0 0 0, decodeWords 0x00010011 0 0 0,
     decodeWords 0x00000010 0x00000001 0 0, decodeWords 0x00000013 0x00010000 0 0,
     decodeWords 0x00000014 0 0x00000001 0, decodeWords 0x00000016 0 0x00010000 0,
     decodeWords 0x00000004 0 0 0x00000001].all (· == .illegal .reservedField) = true := by decide
theorem test_decodeTableWord : decodeTableWord 128 (0x11 + 0x100 * 2 ^ 48) = some (.fftFwd 0 0x100) := by
  decide

/-! ### The assembler (R82, R83) -/

theorem test_asm_fft : (assemble "FFT_FWD 0x0000, 0x0100").map encode =
    some (cmdOfWords 0x00000011 0x01000000 0 0) := by decide +kernel
theorem test_asm_setparam : (assemble "SETPARAM 0, 0.3").map encode =
    some (cmdOfWords 0x00000001 0 0 0x3E99999A) := by decide +kernel
theorem test_asm_circular : assemble "HIST_EXTRACT 32/3@P0, 48, 4" = some (.histExtract 0 3 4 32 48) := by
  decide +kernel
theorem test_asm_pseudo : assemble "ZERO 0x0200, 4" = some (.fill 0x200 4 0#32) := by decide +kernel
theorem test_asm_too_wide : assemble "COPY 0, 65536, 1" = none := by decide +kernel

/-! ### One step on small states -/

/-- DMEM whose first words are the listed ones. -/
def memOf (ws : List Word) : Mem := loop ws.length (fun i m => setWord m i (ws.getD i 0#32)) []

/-- A small instance: NMAX = 4, 32 words of DMEM, a queue of two, a region at 0x80000. -/
def smallHw : HwCfg := ⟨2, 5, 2, 0x80000⟩

/-- The small instance after `INIT l`, its DMEM beginning with the listed words. -/
def machine (l : Nat) (ws : List Word) : State :=
  { State.powerOn smallHw (memOf ws) [] with log2n := BitVec.ofNat 5 l, initDone := true }

/-- The state after a command. -/
def after (i : Instr) (s : State) : Option State :=
  match exec i s with
  | .next t => some t
  | _ => none

/-- `n` words of DMEM from `a` on after a command that did not fault. -/
def wordsAfter (i : Instr) (s : State) (a n : Nat) : Option (List Word) :=
  match exec i s with
  | .next t => if t.faulted then none else some ((List.range n).map fun k => memWord t.mem (a + k))
  | _ => none

/-- R113, example. -/
theorem test_nop : (after .nop (machine 2 [])).map (fun t => (t.cmdcnt, t.doneBit, t.cur)) =
    some (1#32, true, none) := by decide +kernel
/-- R114, example and corner case: 0.3 clamps to 0.5 with INVRATIO 2.0; 1.5 has INVRATIO f32(2/3). -/
theorem test_setparam_ratio :
    (after (.setparam 0 0x3E99999A#32) (machine 2 [])).map (fun t => (t.ratio, t.invRatio)) =
      some (0x3F000000#32, 0x40000000#32) ∧
    (after (.setparam 0 0x3FC00000#32) (machine 2 [])).map (fun t => t.invRatio) =
      some 0x3F2AAAAB#32 := by decide +kernel
/-- R114, corner cases: −0 is kept as MIX with OMMIX 1.0; −infinity gives +0. -/
theorem test_setparam_mix :
    (after (.setparam 2 0x80000000#32) (machine 2 [])).map (fun t => (t.mix, t.omMix)) =
      some (0x80000000#32, 0x3F800000#32) ∧
    (after (.setparam 2 0xFF800000#32) (machine 2 [])).map (fun t => t.mix) = some 0#32 := by
  decide +kernel
/-- R115, example. -/
theorem test_setp : (after (.setp 3 6) (machine 2 [])).map (fun t => (t.p.get 3, t.p.get 2)) =
    some (6#16, 0#16) := by decide +kernel
/-- R116: the word as given, up to the last word of DMEM and no further. -/
theorem test_fill : wordsAfter (.fill 30 2 0x7F800001#32) (machine 2 []) 29 3 =
    some [0#32, 0x7F800001#32, 0x7F800001#32] := by decide +kernel
/-- R117, example. -/
theorem test_copy : wordsAfter (.copy 0 1 3)
    (machine 2 [0x3F800000#32, 0x40000000#32, 0x40400000#32, 0x40800000#32]) 0 4 =
    some [0x3F800000#32, 0x3F800000#32, 0x3F800000#32, 0x3F800000#32] := by decide +kernel
/-- R88, example. -/
theorem test_init : (after (.init 8) State.reset).map (fun t => (t.log2n, t.initDone)) =
    some (8#5, true) := by decide +kernel
/-- R88: above LOG2N_MAX. -/
theorem test_init_range : (after (.init 3) (machine 2 [])).map (fun t => (t.cause, t.log2n)) =
    some (.fieldRange, 2#5) := by decide +kernel
/-- R89, example. -/
theorem test_fftFwd : wordsAfter (.fftFwd 0 4)
    (machine 2 [0x3F800000#32, 0x40000000#32, 0x40400000#32, 0x40800000#32]) 4 8 =
    some [0x41200000#32, 0xC0000000#32, 0xC0000000#32, 0xC0000000#32,
      0x00000000#32, 0x40000000#32, 0x00000000#32, 0xC0000000#32] := by decide +kernel
/-- R90, example. -/
theorem test_fftInv : wordsAfter (.fftInv 0 8)
    (machine 2 [0x41200000#32, 0xC0000000#32, 0xC0000000#32, 0xC0000000#32,
      0x00000000#32, 0x40000000#32, 0x00000000#32, 0xC0000000#32]) 8 4 =
    some [0x3F800000#32, 0x40000000#32, 0x40400000#32, 0x40800000#32] := by decide +kernel
/-- R91, example. -/
theorem test_fftshift : wordsAfter (.fftshift 0)
    (machine 2 [0x3F800000#32, 0x40000000#32, 0x40400000#32, 0x40800000#32]) 0 4 =
    some [0x40400000#32, 0x40800000#32, 0x3F800000#32, 0x40000000#32] := by decide +kernel
/-- R92, examples. -/
theorem test_mag : wordsAfter (.mag 0 4) (machine 1 [0x40400000#32, 0xC0000000#32, 0x40800000#32,
    0x40000000#32]) 4 2 = some [0x40A00000#32, 0x403504F3#32] := by decide +kernel
/-- R93, law points: (10.0, +0) gives +0 and (−2.0, +0) gives PI_F32. -/
theorem test_phase : wordsAfter (.phase 0 4) (machine 1 [0x41200000#32, 0xC0000000#32, 0#32, 0#32]) 4 2 =
    some [0x00000000#32, 0x40490FDB#32] := by decide +kernel
/-- R94, example. -/
theorem test_polar : wordsAfter (.polar 0 2 4) (machine 1 [0x40000000#32, 0x40400000#32, 0#32,
    0x80000000#32]) 4 4 = some [0x40000000#32, 0x40400000#32, 0x00000000#32, 0x80000000#32] := by
  decide +kernel
/-- R97, example. -/
theorem test_princarg : wordsAfter (.princarg 0 4 4) (machine 2 [0x40800000#32, 0x40490FDB#32,
    0xC0490FDB#32, 0xC0800000#32]) 4 4 =
    some [0xC0121FB6#32, 0xC0490FDB#32, 0xC0490FDB#32, 0x40121FB6#32] := by decide +kernel
/-- R98, example. -/
theorem test_phasediff : wordsAfter (.phasediff 0 2 4 2) (machine 2 [0x40400000#32, 0xC0400000#32,
    0xC0400000#32, 0x40400000#32]) 4 2 = some [0xBE90FDB0#32, 0x3E90FDB0#32] := by decide +kernel
/-- R99, example with RATIO = 1.0. -/
theorem test_pvUnwrap : wordsAfter (.pvUnwrap 0 4 8 1) (machine 2 [0#32, 0x3F800000#32, 0x40000000#32,
    0x40400000#32]) 4 8 = some [0#32, 0x3F800000#32, 0x40000000#32, 0x40400000#32,
      0#32, 0x3F800000#32, 0x40000000#32, 0x40400000#32] := by decide +kernel
/-- R99, example with RATIO = 2.0. -/
theorem test_pvUnwrap_half : wordsAfter (.pvUnwrap 0 4 8 1)
    (setRatio 0x40000000#32 (machine 2 [0#32, 0x3F800000#32, 0x40000000#32, 0x40400000#32])) 8 4 =
    some [0#32, 0x3F000000#32, 0x3F800000#32, 0x3FC00000#32] := by decide +kernel
/-- R101, example. -/
theorem test_vmul : wordsAfter (.vmul 0 3 6 3) (machine 2 [0x3F800000#32, 0x40000000#32, 0x40400000#32,
    0x3F000000#32, 0x3F000000#32, 0x40000000#32]) 6 3 =
    some [0x3F000000#32, 0x3F800000#32, 0x40C00000#32] := by decide +kernel
/-- R102, example. -/
theorem test_zpad : wordsAfter (.zpad 0 2 2) (machine 2 [0x40E00000#32, 0x41000000#32, 1#32, 1#32, 1#32,
    1#32]) 2 4 = some [0x40E00000#32, 0x41000000#32, 0#32, 0#32] := by decide +kernel
/-- R103, example: slots 6, 7, 0, 1. -/
theorem test_histPush :
    (after (.histPush 0 3 4 0 8) ((machine 2 [1#32, 2#32, 3#32, 4#32]).setPtr 0 6)).map (fun t =>
      ([8, 9, 14, 15].map (memWord t.mem), t.p.get 0)) =
    some ([3#32, 4#32, 1#32, 2#32], 2#16) := by decide +kernel
/-- R104, example: after the push of R103. -/
theorem test_histExtract : wordsAfter (.histExtract 0 3 4 0 8)
    ((machine 2 [3#32, 4#32, 0#32, 0#32, 0#32, 0#32, 1#32, 2#32]).setPtr 0 2) 8 4 =
    some [1#32, 2#32, 3#32, 4#32] := by decide +kernel
/-- R105, example: slots 6, 7, 0, 1, head advanced by 2. -/
theorem test_olaAdd :
    (after (.olaAdd 1 3 4 0 8 2)
      ((machine 2 [0x3F800000#32, 0x3F800000#32, 0x3F800000#32, 0x3F800000#32]).setPtr 1 6)).map (fun t =>
      ([8, 9, 10, 14, 15].map (memWord t.mem), t.p.get 1)) =
    some ([0x3F800000#32, 0x3F800000#32, 0#32, 0x3F800000#32, 0x3F800000#32], 0#16) := by decide +kernel
/-- R106, example: slots 6 and 7 drained. -/
theorem test_olaDrain :
    (after (.olaDrain 2 3 2 0 8) ((machine 2 [5#32, 5#32, 0#32, 0#32, 0#32, 0#32, 0x3F800000#32,
      0x3F800000#32]).setPtr 2 6)).map (fun t => ([0, 6, 7, 8, 9].map (memWord t.mem), t.p.get 2)) =
    some ([5#32, 0#32, 0#32, 0x3F800000#32, 0x3F800000#32], 0#16) := by decide +kernel
/-- R107, with MIX = 0.5: dry 2.0 and 4.0, wet 1.0 and 1.0 give 1.5 and 2.5. -/
theorem test_olaDrainMix :
    (after (.olaDrainMix 0 1 2 0 2 4) (setMix 0x3F000000#32 (machine 2 [0x40000000#32, 0x40800000#32,
      0x3F800000#32, 0x3F800000#32]))).map (fun t => [2, 3, 4, 5].map (memWord t.mem)) =
    some [0#32, 0#32, 0x3FC00000#32, 0x40200000#32] := by decide +kernel
/-- R108, example. -/
theorem test_splitCarry : wordsAfter (.splitCarry 0 4 6 2) (machine 2 [0x3F800000#32, 0x40000000#32,
    0x40400000#32, 0x40800000#32, 0x41200000#32, 0x41A00000#32]) 4 4 =
    some [0x40400000#32, 0x40800000#32, 0x41300000#32, 0x41B00000#32] := by decide +kernel
/-- R110, example, in place: (1.0, 2.0) times (3.0, 4.0) is (−5.0, 10.0). -/
theorem test_cmul : wordsAfter (.cmul 0 4 0) (machine 1 [0x3F800000#32, 0x3F800000#32, 0x40000000#32,
    0x40000000#32, 0x40400000#32, 0x40400000#32, 0x40800000#32, 0x40800000#32]) 0 4 =
    some [0xC0A00000#32, 0xC0A00000#32, 0x41200000#32, 0x41200000#32] := by decide +kernel
/-- R111, example: the identity matrix in bin 0 keeps ((2.0, 3.0), (4.0, 5.0)). -/
theorem test_cmatApply : wordsAfter (.cmatApply 0 16 24) (machine 1 [0x3F800000#32, 0#32, 0#32, 0#32,
    0#32, 0#32, 0#32, 0#32, 0#32, 0#32, 0#32, 0#32, 0x3F800000#32, 0#32, 0#32, 0#32,
    0x40000000#32, 0#32, 0x40400000#32, 0#32, 0x40800000#32, 0#32, 0x40A00000#32, 0#32]) 24 8 =
    some [0x40000000#32, 0#32, 0x40400000#32, 0#32, 0x40800000#32, 0#32, 0x40A00000#32, 0#32] := by
  decide +kernel
/-- R112, example: the identity in bin 0 with BETA = 1.0 gives 0.5 on the diagonal. -/
theorem test_cmatInv : (wordsAfter (.cmatInv 0 16) (setBeta 0x3F800000#32 (machine 1 [0x3F800000#32, 0#32,
    0#32, 0#32, 0#32, 0#32, 0#32, 0#32, 0#32, 0#32, 0#32, 0#32, 0x3F800000#32])) 16 16).map
    (fun l => [0, 2, 4, 6, 8, 10, 12, 14].map fun k => l.getD k 1#32) =
    some [0x3F000000#32, 0#32, 0#32, 0#32, 0#32, 0#32, 0x3F000000#32, 0#32] := by decide +kernel
/-- R112, example: C = 0 with BETA = +0 gives +0 in every entry. -/
theorem test_cmatInv_zero : wordsAfter (.cmatInv 0 16) (machine 1 []) 16 16 =
    some (List.replicate 16 0#32) := by decide +kernel

/-! ### Faults and host moves -/

/-- A step of a state, if it answers one. -/
def stepped (s : State) : Option State :=
  match step s with
  | .next t => some t
  | _ => none

/-- R120, R121: NOT_INIT before the extents are looked at, the queue discarded, DMEM untouched. -/
theorem test_fault_notInit :
    (stepped { State.reset with cur := some (encode (.mag 0xFFFF 0)), queue := [0#128] }).map
      (fun t => (t.faulted, t.cause, t.queue, t.cmdcnt)) = some (true, .notInit, [], 0#32) := by
  decide +kernel
/-- R120: FIELD_RANGE for LG = 17, before ADDR_RANGE. -/
theorem test_fault_fieldRange : (after (.histPush 0 17 0 0xFFFF 0xFFFF) (machine 2 [])).map
    (fun t => t.cause) = some .fieldRange := by decide +kernel
/-- R62: one word past the end. -/
theorem test_fault_addrRange : (after (.fill 31 2 1#32) (machine 2 [])).map
    (fun t => (t.cause, t.mem, t.doneBit)) = some (.addrRange, [], false) := by decide +kernel
/-- R123: the third push into a queue of two. -/
theorem test_overflow : (stepped { machine 2 [] with
    queue := [0#128, 0#128], turns := [.host (.write 0x8004C 4 5#32)] }).map
    (fun t => (t.cause, t.queue, wordOfCmd t.faultCmd 3)) = some (.cqOverflow, [], 5#32) := by decide +kernel
/-- R61: a window write with ACTIVE = 1 is dropped and sets HCOLL. -/
theorem test_collision : (stepped { machine 2 [] with
    queue := [0#128], turns := [.host (.write 0xC0000 4 5#32)] }).map (fun t => (t.mem, t.hcollBit)) =
    some ([], true) := by decide +kernel
/-- R54: byte lanes are little-endian. -/
theorem test_byte_lanes : (stepped { machine 2 [] with turns := [.host (.write 0xC0004 4 0x04030201#32)] }).map
    (fun t => t.mem) = some [(4, 1#8), (5, 2#8), (6, 3#8), (7, 4#8)] := by decide +kernel
theorem test_withFetchWord : (stepped (State.reset.withFetchWord 128 0x00060302)).map
    (fun t => (t.p.get 3, t.cmdcnt)) = some (6#16, 1#32) := by decide +kernel
/-- R10: arc tangent at zeros. -/
theorem test_atan2_zeros : atan2F32 0x80000000#32 0x80000000#32 = 0xC0490FDB#32 ∧
    atan2F32 0x3F800000#32 0x80000000#32 = 0x3FC90FDB#32 := by decide +kernel

/-- R84: the entries the rule lists for LOG2N_MAX = 12. -/
theorem test_twiddles : [0, 1, 2, 256, 512, 1024, 1536, 2047].map (fun j => (twr 12 j, twi 12 j)) =
    [(0x3F800000#32, 0x00000000#32), (0x3F7FFFEC#32, 0xBAC90FD5#32), (0x3F7FFFB1#32, 0xBB490FC6#32),
     (0x3F6C835E#32, 0xBEC3EF15#32), (0x3F3504F3#32, 0xBF3504F3#32), (0x00000000#32, 0xBF800000#32),
     (0xBF3504F3#32, 0xBF3504F3#32), (0xBF7FFFEC#32, 0xBAC90FD5#32)] := by decide +kernel
/-- R96 and R95: values the rules list. -/
theorem test_omega_princarg : omega 4 3 1 = 0x4096CBE4#32 ∧ omega 256 255 64 = 0x43C846CB#32 ∧
    princarg 0x4116CBE4#32 = 0xC0490FDC#32 ∧ princarg 0x7149F2CA#32 = 0x65800000#32 := by decide +kernel

/-! ### Witnesses: states and operands that meet the statements' hypotheses -/

/-- FFT-sized commands: the small machine meets the invariant with INIT done, and before INIT. -/
def small : State := machine 1 []

/-- The same machine before INIT. -/
def fresh : State := State.powerOn smallHw [] []

theorem witness_DecodeOfEncode : (Instr.olaAdd 7 31 0xFFFF 0xFFFF 0xFFFF 0xFFFF).wf = true := by decide
theorem witness_EncodeOfDecode : decode (cmdOfWords 0x00108734 0x03040102 0x05060000 0) =
    .ok (.olaAdd 7 16 0x10 0x102 0x304 0x506) := by decide
/-- Opcodes at the edges of the reserved ranges and beside them. -/
theorem witness_ReservedOpcodesFault :
    (∀ op ∈ [0x05, 0x0F, 0x17, 0x1F, 0x23, 0x2F, 0x38, 0x3F, 0x43, 0xFF],
      (5 ≤ op ∧ op ≤ 0x0F ∨ 0x17 ≤ op ∧ op ≤ 0x1F ∨ 0x23 ≤ op ∧ op ≤ 0x2F ∨ 0x38 ≤ op ∧ op ≤ 0x3F ∨
        0x43 ≤ op)) ∧
    (0xFFFFFFFFFFFFFFFFFFFFFFFFFFFFFF05#128).toNat % 2 ^ 8 = 5 ∧
    { small with cur := some 0xFFFFFFFFFFFFFFFFFFFFFFFFFFFFFF05#128 }.cur =
      some 0xFFFFFFFFFFFFFFFFFFFFFFFFFFFFFF05#128 ∧ small.turns = [] := by decide
theorem witness_StepRunsDecoded : { small with cur := some 0#128 }.cur = some 0#128 ∧ small.turns = [] ∧
    decode 0#128 = .ok .nop ∧ decode 5#128 = .illegal .illegalOpcode ∧
    decode 0x100#128 = .illegal .reservedField := by decide
theorem witness_IssueOrIdle : small.turns = [] ∧ small.cur = none ∧ small.faulted = false ∧
    small.queue = [] ∧ { small with queue := [0#128] }.queue = [0#128] ∧
    { small with faulted := true }.faulted = true := by decide
theorem witness_NopResult : (0#128).toNat % 2 ^ 8 = 0 ∧ (0x100#128).toNat % 2 ^ 8 = 0 ∧
    0x100#128 ≠ 0#128 := by decide
/-- The encoding clause of the instructions' statements: a word with every unused field zero, and one with
one unused field not zero (FILL). -/
theorem witness_encodings :
    (0x03#128).toNat % 2 ^ 8 = 0x03 ∧
    (∀ x ∈ [placePR, placeLG, placeB, placeC, placeD], (0x03#128).toNat / 2 ^ x.1 % 2 ^ x.2 = 0) ∧
    (∃ x ∈ [placePR, placeLG, placeB, placeC, placeD], (0x103#128).toNat / 2 ^ x.1 % 2 ^ x.2 ≠ 0) := by
  decide
/-- Operands of every clause of the ratio's and the mix's choice, and ids 2 and 3. -/
theorem witness_SetparamResult : isNaN 0x7F800001#32 = true ∧ flt 0x3EFFFFFF#32 0x3F000000#32 = true ∧
    flt 0x3F000000#32 0x3F000000#32 = false ∧ flt 0x40000000#32 0x40000000#32 = false ∧
    flt 0x40000000#32 0x40000001#32 = true ∧ flt 0x80000000#32 0#32 = false ∧
    flt 0x80000001#32 0#32 = true ∧ flt 0x3F800000#32 0x3F800001#32 = true ∧ 2 < 3 := by decide
theorem witness_SetpResult : 0xFFFF < 2 ^ 16 ∧
    (stepped { small with cur := some (encode (.setp 3 6)) }).map (fun t => decide (t.p ≠ small.p)) =
      some true ∧
    (stepped { small.setPtr 3 6 with turns := [.host (.write 0x80008 4 1#32)] }).map
      (fun t => decide (t.p ≠ (small.setPtr 3 6).p)) = some true ∧
    isReset small (.write 0x80008 4 1#32) := by
  refine ⟨by decide, by decide +kernel, by decide +kernel, rfl, rfl⟩
theorem witness_FillResult : small.fits 31 1 ∧ small.fits 0xFFFF 0 ∧ ¬ small.fits 31 2 := by decide
theorem witness_CopyResult : (small.fits 0 31 ∧ small.fits 1 31) ∧ ¬ (small.fits 0 31 ∧ small.fits 2 31) ∧
    (0 < 1 ∧ 1 < 0 + 31) ∧ ¬ (1 < 1 ∧ 1 < 1 + 31) := by decide
theorem witness_InitResult : small.hw.legal = true ∧ (1 ≤ 1 ∧ 1 ≤ small.hw.log2nMax) ∧
    (1 ≤ 2 ∧ 2 ≤ small.hw.log2nMax) ∧ (0 < 1 ∨ small.hw.log2nMax < 0) ∧ (3 < 1 ∨ small.hw.log2nMax < 3) := by
  decide
/-- The invariant holds of the small machine, with INIT done and before. -/
theorem witness_invariant : small.ok = true ∧ fresh.ok = true ∧ (machine 2 []).ok = true := by
  decide +kernel
theorem witness_FftFwdResult : small.ok = true ∧ small.initDone = true ∧
    (small.fits 30 (2 ^ small.log2n.toNat) ∧ small.fits 28 (2 * 2 ^ small.log2n.toNat)) ∧
    fresh.initDone = false ∧
    ¬ (small.fits 31 (2 ^ small.log2n.toNat) ∧ small.fits 28 (2 * 2 ^ small.log2n.toNat)) := by
  decide +kernel
theorem witness_FftInvResult : small.ok = true ∧ small.initDone = true ∧
    (small.fits 28 (2 * 2 ^ small.log2n.toNat) ∧ small.fits 30 (2 ^ small.log2n.toNat)) ∧
    fresh.initDone = false ∧
    ¬ (small.fits 29 (2 * 2 ^ small.log2n.toNat) ∧ small.fits 30 (2 ^ small.log2n.toNat)) := by
  decide +kernel
theorem witness_FftshiftResult : small.ok = true ∧ small.initDone = true ∧
    small.fits 30 (2 ^ small.log2n.toNat) ∧ fresh.initDone = false ∧
    ¬ small.fits 31 (2 ^ small.log2n.toNat) := by decide +kernel
/-- MAG and PHASE. -/
theorem witness_MagResult_PhaseResult : small.initDone = true ∧
    (small.fits 28 (2 * 2 ^ small.log2n.toNat) ∧ small.fits 30 (2 ^ small.log2n.toNat)) ∧
    fresh.initDone = false ∧
    ¬ (small.fits 28 (2 * 2 ^ small.log2n.toNat) ∧ small.fits 31 (2 ^ small.log2n.toNat)) := by decide
theorem witness_PolarResult : small.initDone = true ∧
    (small.fits 30 (2 ^ small.log2n.toNat) ∧ small.fits 30 (2 ^ small.log2n.toNat) ∧
      small.fits 28 (2 * 2 ^ small.log2n.toNat)) ∧ fresh.initDone = false ∧
    ¬ (small.fits 30 (2 ^ small.log2n.toNat) ∧ small.fits 30 (2 ^ small.log2n.toNat) ∧
      small.fits 29 (2 * 2 ^ small.log2n.toNat)) := by decide
theorem witness_PrincargResult : (small.fits 0 32 ∧ small.fits 0 32) ∧
    ¬ (small.fits 0 33 ∧ small.fits 0 33) := by decide
/-- PHASEDIFF and VMUL. -/
theorem witness_PhasediffResult_VmulResult : (small.fits 0 16 ∧ small.fits 16 16 ∧ small.fits 16 16) ∧
    ¬ (small.fits 0 16 ∧ small.fits 16 16 ∧ small.fits 17 16) := by decide
theorem witness_PvUnwrapResult : small.initDone = true ∧
    (small.fits 0 (2 ^ small.log2n.toNat) ∧ small.fits 2 (2 ^ small.log2n.toNat) ∧
      small.fits 30 (2 ^ small.log2n.toNat)) ∧ fresh.initDone = false ∧
    ¬ (small.fits 0 (2 ^ small.log2n.toNat) ∧ small.fits 2 (2 ^ small.log2n.toNat) ∧
      small.fits 31 (2 ^ small.log2n.toNat)) := by decide
theorem witness_ZpadResult : small.initDone = true ∧ 2 ≤ 2 ^ small.log2n.toNat ∧
    (small.fits 30 2 ∧ small.fits 30 (2 ^ small.log2n.toNat)) ∧ fresh.initDone = false ∧
    2 ^ small.log2n.toNat < 3 ∧ ¬ (small.fits 31 2 ∧ small.fits 30 (2 ^ small.log2n.toNat)) := by decide
/-- HIST_PUSH and OLA_ADD; LG = 16 and LG = 17, CNT = 2^LG and one more. -/
theorem witness_HistPushResult_OlaAddResult : circularLegal 5 32 ∧ small.fits 0 32 ∧ small.fits 0 (2 ^ 5) ∧
    ¬ circularLegal 5 33 ∧ circularLegal 16 0 ∧ ¬ circularLegal 17 0 ∧
    ¬ (small.fits 1 32 ∧ small.fits 0 (2 ^ 5)) := by decide
/-- HIST_EXTRACT and OLA_DRAIN. -/
theorem witness_HistExtractResult_OlaDrainResult : circularLegal 4 16 ∧ small.fits 16 (2 ^ 4) ∧
    small.fits 0 16 ∧ ¬ circularLegal 4 17 ∧ circularLegal 16 0 ∧ ¬ circularLegal 17 0 ∧
    ¬ (small.fits 17 (2 ^ 4) ∧ small.fits 0 16) := by decide
theorem witness_OlaDrainMixResult : circularLegal 3 8 ∧ small.fits 0 8 ∧ small.fits 24 (2 ^ 3) ∧
    small.fits 8 8 ∧ ¬ circularLegal 3 9 ∧
    ¬ (small.fits 0 8 ∧ small.fits 24 (2 ^ 3) ∧ small.fits 25 8) := by decide
theorem witness_SplitCarryResult : (small.fits 0 (2 * 8) ∧ small.fits 16 8 ∧ small.fits 24 8) ∧
    ¬ (small.fits 0 (2 * 8) ∧ small.fits 16 8 ∧ small.fits 25 8) ∧ ¬ small.fits 0 (2 * 65535) := by decide
theorem witness_CmulResult : small.initDone = true ∧
    (small.fits 28 (2 * 2 ^ small.log2n.toNat) ∧ small.fits 0 (2 * 2 ^ small.log2n.toNat) ∧
      small.fits 28 (2 * 2 ^ small.log2n.toNat)) ∧ fresh.initDone = false ∧
    ¬ (small.fits 29 (2 * 2 ^ small.log2n.toNat) ∧ small.fits 0 (2 * 2 ^ small.log2n.toNat) ∧
      small.fits 28 (2 * 2 ^ small.log2n.toNat)) := by decide
theorem witness_CmatApplyResult : small.initDone = true ∧
    (small.fits 0 (8 * 2 ^ small.log2n.toNat) ∧ small.fits 16 (4 * 2 ^ small.log2n.toNat) ∧
      small.fits 24 (4 * 2 ^ small.log2n.toNat)) ∧ fresh.initDone = false ∧
    ¬ (small.fits 0 (8 * 2 ^ small.log2n.toNat) ∧ small.fits 16 (4 * 2 ^ small.log2n.toNat) ∧
      small.fits 25 (4 * 2 ^ small.log2n.toNat)) := by decide
theorem witness_CmatInvResult : small.initDone = true ∧
    (small.fits 0 (8 * 2 ^ small.log2n.toNat) ∧ small.fits 16 (8 * 2 ^ small.log2n.toNat)) ∧
    fresh.initDone = false ∧
    ¬ (small.fits 0 (8 * 2 ^ small.log2n.toNat) ∧ small.fits 17 (8 * 2 ^ small.log2n.toNat)) := by decide
/-- Finite operands at the ends of their range: zeros, the least subnormal, the greatest finite value. -/
theorem witness_AddSubRounded_MulDivRounded : isFin 0x7F7FFFFF#32 = true ∧ isFin 0x00000001#32 = true ∧
    isFin 0x80000000#32 = true ∧ valueOf 0x80000000#32 + valueOf 0x00000000#32 = 0 ∧
    valueOf 0x80000000#32 - valueOf 0x00000000#32 = 0 ∧ valueOf 0xBF800000#32 - valueOf 0xBF800000#32 = 0 ∧
    valueOf 0x00000001#32 ≠ 0 := by
  decide +kernel
theorem witness_SqrtRounded : isFin 0x40000000#32 = true ∧ 0 ≤ valueOf 0x40000000#32 ∧
    valueOf 0x80000000#32 = 0 ∧ valueOf 0x80000001#32 < 0 := by decide +kernel
theorem witness_FloorLtNeg : isFin 0xBF000000#32 = true ∧ isFin 0x80000000#32 = true ∧ 31 < 32 ∧
    0 ≠ 31 := by decide
theorem witness_SpecialOperands : isNaN 0x7F800001#32 = true ∧ isNaN 0xFFFFFFFF#32 = true ∧
    isFin 0x7F7FFFFF#32 = true ∧ isFin 0x80000000#32 = true := by decide
theorem witness_TwiddleRomRounded : 2 ≤ 13 ∧ 13 ≤ 13 ∧ 4095 < 2 ^ (13 - 1) ∧ 2 ≤ 2 ∧ 1 < 2 ^ (2 - 1) ∧
    1 ≤ 1 ∧ 0 < 2 ^ (1 - 1) ∧ 4 * 1 = 2 ^ 2 ∧ 4 * 2048 = 2 ^ 13 ∧ 2048 < 2 ^ (13 - 1) := by
  decide
theorem witness_BitReversal : 7 < 2 ^ 3 ∧ 0 < 2 ^ 0 ∧ 2 < 3 := by decide
theorem witness_OmegaRounded : 0 * 5 = 0 := by decide
/-- Fixed points at both ends of the range, and an operand of the clause of infinities and NaNs. -/
theorem witness_PrincargFixedPoints : isFin 0xC0490FDB#32 = true ∧
    -valueOf 0x40490FDB#32 ≤ valueOf 0xC0490FDB#32 ∧ isFin 0x40490FDA#32 = true ∧
    valueOf 0x40490FDA#32 < valueOf 0x40490FDB#32 ∧ isFin 0x7F800000#32 = false := by decide +kernel
theorem witness_TrigLaws : isInf 0xFF800000#32 = true ∧ isFin 0x3F800000#32 = true ∧
    isZero 0x80000000#32 = true ∧ isZero 0x00000001#32 = false ∧ isNaN 0x7FC00000#32 = true ∧
    isNaN 0x7F800000#32 = false ∧ signBit 0x80000000#32 = true ∧ signBit 0x7F800000#32 = false ∧
    isNaN 0xFF800000#32 = false ∧ isFin 0x00000001#32 = true ∧ isInf 0x7F800000#32 = true := by decide
theorem witness_FftOfImpulse : (machine 2 [0x3F800000#32]).ok = true ∧
    (machine 2 [0x3F800000#32]).initDone = true ∧
    (machine 2 [0x3F800000#32]).fits 0 (2 ^ (machine 2 [0x3F800000#32]).log2n.toNat) ∧
    (machine 2 [0x3F800000#32]).fits 24 (2 * 2 ^ (machine 2 [0x3F800000#32]).log2n.toNat) ∧
    memWord (machine 2 [0x3F800000#32]).mem 0 = 0x3F800000#32 ∧
    ([1, 2, 3].all fun i => memWord (machine 2 [0x3F800000#32]).mem (0 + i) == 0#32) = true := by
  decide +kernel
/-- A command that completes and one that faults; a byte outside what the first writes. -/
theorem witness_WritesInsideExtents : check (.fill 30 2 1#32) small = .none ∧
    check (.fill 31 2 1#32) small = .addrRange ∧
    (∀ e ∈ writtenExtents small.nPoints (.fill 30 2 1#32), ¬ (e.1 ≤ 119 / 4 ∧ 119 / 4 < e.1 + e.2)) := by
  decide
/-- Engine turns with and without CUR, and host turns that reset and do not. -/
theorem witness_CmdcntExact_DoneExact : checkCmd 0#128 small = .none ∧ checkCmd 5#128 small ≠ .none ∧
    (stepped { small with cur := some 0#128 }).isSome = true ∧
    (stepped { small with cur := some 5#128 }).isSome = true ∧
    (stepped { small with turns := [.engine] }).isSome = true ∧
    (stepped { small with doneBit := true, turns := [.host (.write 0x8000C 4 0x10#32)] }).map
      (fun t => t.doneBit) = some false ∧
    (0x10#32).getLsbD 4 = true ∧
    (stepped { small with turns := [.host (.assertReset [])] }).isSome = true ∧
    (stepped { small with turns := [.host (.read 0x80018 4)] }).isSome = true := by decide +kernel
theorem witness_engineTurn : small.engineTurn ∧ { small with turns := [.engine] }.engineTurn ∧
    isReset small (.assertReset []) ∧ ¬ isReset small (.write 0x80008 4 2#32) := by
  refine ⟨.inl rfl, .inr ⟨[], rfl⟩, trivial, ?_⟩
  rintro ⟨_, h⟩
  exact absurd h (by decide)
theorem witness_ParametersOnlyByCommands :
    (stepped { small with cur := some (encode (.setparam 1 5#32)) }).map
      (fun t => decide (t.beta = small.beta)) = some false := by decide +kernel
/-- A faulted machine, one with a full queue, and one with room for one more command. -/
theorem witness_PushRule : { small with faulted := true }.faulted = true ∧ small.faulted = false ∧
    { small with queue := [0#128, 0#128] }.queue.length = small.hw.cqDepth ∧
    { small with queue := [0#128] }.pushSafe = true := by decide
theorem witness_DmemWindow : 31 < 0x10000 ∧ small.quiet = true ∧ 31 < small.dmemWords ∧
    small.dmemWords ≤ 32 ∧ 0xFFFF < 0x10000 ∧ { small with queue := [0#128] }.quiet = false ∧
    { small with cur := some 0#128 }.quiet = false := by decide
theorem witness_CtrlActions : (6#32).getLsbD 0 = false := by decide
theorem witness_IdAndHwcfg : HwCfg.legal ⟨13, 16, 255, 0x80000⟩ = true ∧ HwCfg.legal ⟨2, 5, 1, 0⟩ = true ∧
    HwCfg.legal HwCfg.suggested = true := by decide
theorem witness_ReadOnlyRegisters : { small with queue := List.replicate 255 0#128 }.queue.length < 2 ^ 8 := by
  decide +kernel
theorem witness_ReservedOffsets : 0x3FFFC < 0x40000 ∧ 0x3FFFC % 4 = 0 ∧ 0x024 % 4 = 0 ∧
    0x024 ∉ [0x000, 0x004, 0x008, 0x00C, 0x010, 0x014, 0x018, 0x01C, 0x020, 0x030, 0x034, 0x038, 0x03C,
      0x040, 0x044, 0x048, 0x04C, 0x050, 0x054, 0x058, 0x05C, 0x060, 0x080, 0x084, 0x088, 0x08C, 0x090,
      0x094, 0x098, 0x09C] := by decide
theorem witness_DefinedAccesses : (small.hw.base ≤ 0xFFFFC ∧ 0xFFFFC < small.hw.base + 0x80000) ∧
    (0xFFFFC - small.hw.base) % 4 = 0 ∧ (small.hw.base ≤ 0xFFFFD ∧ 0xFFFFD < small.hw.base + 0x80000) ∧
    ¬ (0xFFFFD - small.hw.base) % 4 = 0 ∧ ¬ (small.hw.base ≤ 0x7FFFC ∧ 0x7FFFC < small.hw.base + 0x80000) ∧
    ¬ (small.hw.base ≤ 0x100000 ∧ 0x100000 < small.hw.base + 0x80000) := by decide
/-- A byte that the run lists twice, the first cell counting, at the end of DMEM. -/
theorem witness_ResetInput : 127 < 4 * small.dmemWords ∧
    [(127, 5#8), (127, 6#8)].find? (fun cell => cell.1 == 127) = some (127, 5#8) := by decide
/-- Soft reset with a command in execution: its words are abandoned, a word beside them is not. -/
theorem witness_SoftReset : (0xFFFFFFFF#32).getLsbD 0 = true ∧
    { small with cur := some (encode (.fill 30 1 1#32)) }.abandoned 30 ∧
    ¬ small.abandoned 30 := by
  refine ⟨by decide, ⟨_, .fill 30 1 1#32, rfl, by decide +kernel, by decide, (30, 1), ?_, by decide⟩, ?_⟩
  · exact List.mem_singleton.2 rfl
  · rintro ⟨c, i, h, _⟩
    exact absurd h (by simp [small, machine, State.powerOn])
theorem witness_InvariantKept : { small with queue := [0#128] }.ok = true ∧
    (stepped { small with queue := [0#128] }).isSome = true := by decide +kernel
theorem witness_EngineDrains : { small with queue := [0#128, 5#128], cur := some 0#128 }.ok = true ∧
    small.turns = [] := by decide +kernel

end Sys2Proof.Tests
end

/-! SUPPORT. A binary32 pattern as its sign and its 31 magnitude bits, what each reading of a pattern
(00_scope.md R17) says in these terms, and rounding as a choice among the magnitude bits. -/

section
namespace Sys2Proof.Machine

/-! ### A pattern is a sign and 31 magnitude bits -/

/-- The magnitude, in units of 2^-149, that the 31 magnitude bits `m` stand for. Over all of `Nat` it is
strictly increasing, so that the overflow bound is one more step of it. -/
def magOfBits (m : Nat) : Nat :=
  (if m / 2 ^ 23 = 0 then m % 2 ^ 23 else 2 ^ 23 + m % 2 ^ 23) * 2 ^ (m / 2 ^ 23 - 1)

/-- The factor a sign bit contributes to a value. -/
def signFactor (neg : Bool) : Int := if neg then -1 else 1

theorem toNat_pack {neg : Bool} {m : Nat} (hm : m < 0x80000000) :
    (pack neg m).toNat = (if neg then 2 ^ 31 else 0) + m := by
  cases neg <;> simp [pack] <;> omega

theorem exists_eq_pack (w : Word) : ∃ neg m, m < 0x80000000 ∧ w = pack neg m := by
  have hw := w.isLt
  have hm : w.toNat % 2 ^ 31 < 0x80000000 := Nat.mod_lt _ (by decide)
  refine ⟨decide (2 ^ 31 ≤ w.toNat), w.toNat % 2 ^ 31, hm, ?_⟩
  apply BitVec.eq_of_toNat_eq
  rw [toNat_pack hm]
  by_cases h : 2 ^ 31 ≤ w.toNat
  · rw [if_pos (decide_eq_true h)]
    omega
  · rw [if_neg (by simpa using h)]
    omega

section
variable {neg : Bool} {m : Nat} (hm : m < 0x80000000)
include hm

@[simp] theorem signBit_pack : signBit (pack neg m) = neg := by
  rw [signBit, toNat_pack hm, field]
  cases neg <;> simp <;> omega

@[simp] theorem expField_pack : expField (pack neg m) = m / 2 ^ 23 := by
  rw [expField, toNat_pack hm, field]
  cases neg <;> simp <;> omega

@[simp] theorem fracField_pack : fracField (pack neg m) = m % 2 ^ 23 := by
  rw [fracField, toNat_pack hm, field]
  cases neg <;> simp
  omega

@[simp] theorem isFin_pack : isFin (pack neg m) = decide (m < 0x7F800000) := by
  rw [isFin, expField_pack hm, Bool.eq_iff_iff]
  simp
  omega

@[simp] theorem isNaN_pack : isNaN (pack neg m) = decide (0x7F800000 < m) := by
  rw [isNaN, expField_pack hm, fracField_pack hm, Bool.eq_iff_iff]
  simp
  omega

@[simp] theorem isInf_pack : isInf (pack neg m) = decide (m = 0x7F800000) := by
  rw [isInf, expField_pack hm, fracField_pack hm, Bool.eq_iff_iff]
  simp
  omega

@[simp] theorem isZero_pack : isZero (pack neg m) = decide (m = 0) := by
  rw [isZero, expField_pack hm, fracField_pack hm, Bool.eq_iff_iff]
  simp
  omega

@[simp] theorem magOf_pack : magOf (pack neg m) = magOfBits m := by
  simp only [magOf, signif, scale, expField_pack hm, fracField_pack hm, magOfBits]

theorem fixedOf_pack : fixedOf (pack neg m) = signFactor neg * magOfBits m := by
  rw [fixedOf, signBit_pack hm, magOf_pack hm]
  cases neg <;> simp [signFactor]

/-- `neg` flips the sign and keeps the magnitude bits (R17). -/
@[simp] theorem fneg_pack : fneg (pack neg m) = pack (!neg) m := by
  apply BitVec.eq_of_toNat_eq
  rw [fneg, BitVec.toNat_xor, ← Nat.div_add_mod (_ ^^^ _) (2 ^ 31), Nat.xor_div_two_pow,
    Nat.xor_mod_two_pow, toNat_pack hm, toNat_pack hm]
  have hdiv : m / 2147483648 = 0 := Nat.div_eq_of_lt hm
  cases neg <;> simp [hdiv] <;> omega

end

/-! ### The magnitude is strictly increasing in the magnitude bits -/

/-- The packed form of a significand `q` at unit `2 ^ k`, the carry `q = 2 ^ 24` into the next exponent
included. -/
theorem magOfBits_packed {k q : Nat} (hq : q ≤ 2 ^ 24) (hk : k = 0 ∨ 2 ^ 23 ≤ q) :
    magOfBits (k * 2 ^ 23 + q) = q * 2 ^ k := by
  by_cases hsub : q < 2 ^ 23
  · have hk0 : k = 0 := by omega
    have hd : (k * 2 ^ 23 + q) / 2 ^ 23 = 0 := by omega
    have hr : (k * 2 ^ 23 + q) % 2 ^ 23 = q := by omega
    rw [magOfBits, hd, hr, hk0, if_pos rfl]
  · by_cases hcarry : q = 2 ^ 24
    · have hd : (k * 2 ^ 23 + q) / 2 ^ 23 = k + 2 := by omega
      have hr : (k * 2 ^ 23 + q) % 2 ^ 23 = 0 := by omega
      rw [magOfBits, hd, hr, if_neg (Nat.succ_ne_zero _), hcarry, Nat.add_sub_assoc (by decide), pow_succ]
      ring
    · have hd : (k * 2 ^ 23 + q) / 2 ^ 23 = k + 1 := by omega
      have hr : 2 ^ 23 + (k * 2 ^ 23 + q) % 2 ^ 23 = q := by omega
      rw [magOfBits, hd, hr, if_neg (Nat.succ_ne_zero _), Nat.add_sub_cancel]

theorem exists_packed (m : Nat) :
    ∃ k q, q < 2 ^ 24 ∧ (k = 0 ∨ 2 ^ 23 ≤ q) ∧ m = k * 2 ^ 23 + q := by
  by_cases h : m < 2 ^ 23
  · exact ⟨0, m, by omega, .inl rfl, by omega⟩
  · exact ⟨m / 2 ^ 23 - 1, 2 ^ 23 + m % 2 ^ 23, by omega, .inr (by omega), by omega⟩

theorem magOfBits_strictMono : StrictMono magOfBits := by
  refine strictMono_nat_of_lt_succ fun m => ?_
  obtain ⟨k, q, hq, hk, rfl⟩ := exists_packed m
  rw [Nat.add_assoc, magOfBits_packed hq.le hk, magOfBits_packed hq (by omega)]
  exact Nat.mul_lt_mul_of_pos_right q.lt_succ_self (by positivity)

@[simp] theorem magOfBits_zero : magOfBits 0 = 0 := rfl

theorem magOfBits_eq_zero {m : Nat} : magOfBits m = 0 ↔ m = 0 :=
  magOfBits_strictMono.injective.eq_iff (b := 0)

theorem magOfBits_infinity : magOfBits 0x7F800000 = 2 ^ 24 * 2 ^ 253 :=
  magOfBits_packed (k := 253) le_rfl (by decide)

theorem magOfBits_greatestFinite : magOfBits 0x7F7FFFFF = (2 ^ 24 - 1) * 2 ^ 253 :=
  magOfBits_packed (k := 253) (q := 2 ^ 24 - 1) (by decide) (by decide)

/-! ### Nearest magnitude bits, ties to even -/

/-- Of all magnitudes, that of `b` is nearest to `t` (in units of 2^-149), and `b` is even where another is
as near: rounding before the overflow to infinity. -/
def NearestMag (t : ℝ) (b : Nat) : Prop :=
  ∀ j, |(magOfBits b : ℝ) - t| ≤ |(magOfBits j : ℝ) - t| ∧
    (|(magOfBits b : ℝ) - t| = |(magOfBits j : ℝ) - t| → j ≠ b → b % 2 = 0)

theorem cast_magOfBits_le {i j : Nat} (h : i ≤ j) : (magOfBits i : ℝ) ≤ magOfBits j := by
  exact_mod_cast magOfBits_strictMono.monotone h

theorem cast_magOfBits_lt {i j : Nat} (h : i < j) : (magOfBits i : ℝ) < magOfBits j := by
  exact_mod_cast magOfBits_strictMono h

theorem nearestMag_lower {t : ℝ} {b : Nat} (lo : (magOfBits b : ℝ) ≤ t)
    (mid : 2 * t ≤ magOfBits b + magOfBits (b + 1))
    (tie : 2 * t = magOfBits b + magOfBits (b + 1) → b % 2 = 0) : NearestMag t b := by
  intro j
  rw [abs_of_nonpos (by linarith : (magOfBits b : ℝ) - t ≤ 0)]
  rcases le_or_gt j b with hj | hj
  · have hV := cast_magOfBits_le hj
    rw [abs_of_nonpos (by linarith : (magOfBits j : ℝ) - t ≤ 0)]
    refine ⟨by linarith, fun heq hne => ?_⟩
    have hlt := cast_magOfBits_lt (lt_of_le_of_ne hj hne)
    linarith
  · have hV := cast_magOfBits_le (show b + 1 ≤ j from hj)
    have habs := le_abs_self ((magOfBits j : ℝ) - t)
    exact ⟨by linarith, fun heq _ => tie (by linarith)⟩

theorem nearestMag_upper {t : ℝ} {b : Nat} (hi : t ≤ (magOfBits (b + 1) : ℝ))
    (mid : magOfBits b + magOfBits (b + 1) ≤ 2 * t)
    (tie : 2 * t = magOfBits b + magOfBits (b + 1) → (b + 1) % 2 = 0) : NearestMag t (b + 1) := by
  intro j
  rw [abs_of_nonneg (by linarith : 0 ≤ (magOfBits (b + 1) : ℝ) - t)]
  rcases le_or_gt j b with hj | hj
  · have hV := cast_magOfBits_le hj
    have habs := neg_abs_le ((magOfBits j : ℝ) - t)
    exact ⟨by linarith, fun heq _ => tie (by linarith)⟩
  · have hV := cast_magOfBits_le (show b + 1 ≤ j from hj)
    rw [abs_of_nonneg (by linarith : 0 ≤ (magOfBits j : ℝ) - t)]
    refine ⟨by linarith, fun heq hne => ?_⟩
    have hlt := cast_magOfBits_lt (lt_of_le_of_ne (show b + 1 ≤ j from hj) hne.symm)
    linarith

theorem NearestMag.eq_of_exact {b j : Nat} (h : NearestMag (magOfBits j) b) : b = j := by
  have h0 := (h j).1
  rw [sub_self, abs_zero] at h0
  have heq : (magOfBits b : ℝ) = magOfBits j := sub_eq_zero.1 (abs_nonpos_iff.1 h0)
  exact magOfBits_strictMono.injective (by exact_mod_cast heq)

/-- The overflow bound is the midpoint above the greatest finite magnitude; it rounds to the infinity,
whose magnitude bits are the even ones. -/
theorem NearestMag.lt_infinity_iff {t : ℝ} {b : Nat} (h : NearestMag t b) :
    b < 0x7F800000 ↔ t < (2 ^ 25 - 1) * 2 ^ 252 := by
  have hInf : (magOfBits 0x7F800000 : ℝ) = 2 ^ 25 * 2 ^ 252 := by rw [magOfBits_infinity]; norm_num
  have hMax : (magOfBits 0x7F7FFFFF : ℝ) = (2 ^ 25 - 2) * 2 ^ 252 := by
    rw [magOfBits_greatestFinite]; norm_num
  have hu : (0 : ℝ) < 2 ^ 252 := by positivity
  generalize (2 : ℝ) ^ 252 = u at *
  constructor
  · intro hb
    by_contra hge
    have hV := cast_magOfBits_le (show b ≤ 0x7F7FFFFF by omega)
    obtain ⟨hnear, htie⟩ := h 0x7F800000
    rw [hInf, abs_of_nonpos (by linarith : (magOfBits b : ℝ) - t ≤ 0)] at hnear htie
    rcases le_or_gt t (2 ^ 25 * u) with ht | ht
    · rw [abs_of_nonneg (by linarith : 0 ≤ 2 ^ 25 * u - t)] at hnear htie
      have hVb : magOfBits b = magOfBits 0x7F7FFFFF := by
        exact_mod_cast (show (magOfBits b : ℝ) = magOfBits 0x7F7FFFFF by linarith)
      have hb' := magOfBits_strictMono.injective hVb
      have heven := htie (by linarith) (by omega)
      omega
    · rw [abs_of_neg (by linarith : 2 ^ 25 * u - t < 0)] at hnear
      linarith
  · intro hlt
    by_contra hge
    have hV := cast_magOfBits_le (show 0x7F800000 ≤ b by omega)
    have hnear := (h 0x7F7FFFFF).1
    rw [hMax, abs_of_nonneg (by linarith : 0 ≤ (magOfBits b : ℝ) - t)] at hnear
    rcases abs_cases ((2 ^ 25 - 2) * u - t) with ⟨habs, _⟩ | ⟨habs, _⟩ <;> linarith

/-! ### `roundMag` rounds to nearest, ties to even -/

/-- The unit `2 ^ (log2 n - 23)` leaves a 24-bit significand, a full one unless the unit is 1. -/
theorem significand_bounds (n : Nat) :
    n / 2 ^ (n.log2 - 23) < 2 ^ 24 ∧ (n.log2 - 23 = 0 ∨ 2 ^ 23 ≤ n / 2 ^ (n.log2 - 23)) := by
  have hlt : n < 2 ^ (n.log2 + 1) := Nat.lt_log2_self
  refine ⟨?_, ?_⟩
  · rw [Nat.div_lt_iff_lt_mul (by positivity), ← pow_add]
    exact hlt.trans_le (Nat.pow_le_pow_right (by decide) (by omega))
  · rcases Nat.eq_zero_or_pos (n.log2 - 23) with h | h
    · exact .inl h
    · right
      have hn : n ≠ 0 := by rintro rfl; simp at h
      rw [Nat.le_div_iff_mul_le (by positivity), ← pow_add]
      exact (Nat.pow_le_pow_right (by decide) (by omega)).trans (Nat.log2_self_le hn)

/-- What `roundMag` does, over the integers: with the magnitude between the significands `q` and `q + 1` at
unit `2 ^ k`, it takes the one on the magnitude's side of the midpoint, and at the midpoint the even one. -/
theorem roundMag_cases (num : Nat) {den : Nat} (hden : 0 < den) :
    ∃ k q, q < 2 ^ 24 ∧ (k = 0 ∨ 2 ^ 23 ≤ q) ∧ (num / den < 2 ^ 24 ∨ Even (2 ^ k)) ∧
      q * 2 ^ k * den ≤ num ∧ num ≤ (q + 1) * 2 ^ k * den ∧
      (2 * num ≤ (2 * q + 1) * 2 ^ k * den ∧ (2 * num = (2 * q + 1) * 2 ^ k * den → q % 2 = 0) ∧
          roundMag num den = min (k * 2 ^ 23 + q) 0x7F800000 ∨
        (2 * q + 1) * 2 ^ k * den ≤ 2 * num ∧ (2 * num = (2 * q + 1) * 2 ^ k * den → q % 2 = 1) ∧
          roundMag num den = min (k * 2 ^ 23 + q + 1) 0x7F800000) := by
  obtain ⟨hq, hk⟩ := significand_bounds (num / den)
  have hscale : num / den < 2 ^ 24 ∨ Even (2 ^ ((num / den).log2 - 23)) := by
    rcases Nat.eq_zero_or_pos ((num / den).log2 - 23) with h0 | h0
    · rw [h0, pow_zero, Nat.div_one] at hq
      exact .inl hq
    · exact .inr ((Nat.even_pow' h0.ne').2 even_two)
  rw [roundMag]
  rw [Nat.div_div_eq_div_mul] at hq hk
  generalize (num / den).log2 - 23 = k at *
  have hdm := Nat.div_add_mod num (den * 2 ^ k)
  have hmod := Nat.mod_lt num (show 0 < den * 2 ^ k by positivity)
  generalize num / (den * 2 ^ k) = q, num % (den * 2 ^ k) = r at *
  have e0 : q * 2 ^ k * den = den * 2 ^ k * q := by ring
  have e1 : (q + 1) * 2 ^ k * den = den * 2 ^ k * q + den * 2 ^ k := by ring
  have e2 : (2 * q + 1) * 2 ^ k * den = 2 * (den * 2 ^ k * q) + den * 2 ^ k := by ring
  refine ⟨k, q, hq, hk, hscale, by omega, by omega, ?_⟩
  rw [e2, Nat.add_assoc (k * 2 ^ 23)]
  split_ifs with hup
  · exact .inr ⟨by omega, by omega, rfl⟩
  · exact .inl ⟨by omega, by omega, rfl⟩

/-- The rational `num / den` and the real `t` compare alike with every half integer, or, where the unit of
the significand is 2 or more, with every integer: all that `roundMag` looks at. -/
def RoundsAlike (num den : Nat) (t : ℝ) : Prop :=
  ∀ c : Nat, num / den < 2 ^ 24 ∨ Even c →
    (2 * num ≤ c * den ↔ 2 * t ≤ c) ∧ (c * den ≤ 2 * num ↔ (c : ℝ) ≤ 2 * t)

theorem roundsAlike_div (num : Nat) {den : Nat} (hden : 0 < den) :
    RoundsAlike num den ((num : ℝ) / den) := by
  intro c _
  have hd : (0 : ℝ) < den := by exact_mod_cast hden
  rw [← mul_div_assoc, div_le_iff₀ hd, le_div_iff₀ hd]
  exact ⟨by exact_mod_cast Iff.rfl, by exact_mod_cast Iff.rfl⟩

theorem exists_nearestMag_roundMag {num den : Nat} {t : ℝ} (hden : 0 < den)
    (h : RoundsAlike num den t) : ∃ b, NearestMag t b ∧ roundMag num den = min b 0x7F800000 := by
  obtain ⟨k, q, hq, hk, hscale, hlo, hhi, hround⟩ := roundMag_cases num hden
  have hb : (magOfBits (k * 2 ^ 23 + q) : ℝ) = q * 2 ^ k := by
    rw [magOfBits_packed hq.le hk]
    push_cast
    rfl
  have hb' : (magOfBits (k * 2 ^ 23 + q + 1) : ℝ) = (q + 1) * 2 ^ k := by
    rw [Nat.add_assoc, magOfBits_packed hq (by omega)]
    push_cast
    rfl
  have hbelow := (h (2 * (q * 2 ^ k)) (.inr (even_two_mul _))).2.1 (by linarith)
  have habove := (h (2 * ((q + 1) * 2 ^ k)) (.inr (even_two_mul _))).1.1 (by linarith)
  obtain ⟨hle, hge⟩ := h ((2 * q + 1) * 2 ^ k) (hscale.imp_right (·.mul_left _))
  have htie : 2 * t = ((2 * q + 1) * 2 ^ k : Nat) → 2 * num = (2 * q + 1) * 2 ^ k * den :=
    fun e => le_antisymm (hle.2 e.le) (hge.2 e.ge)
  push_cast at hbelow habove hle hge htie
  rcases hround with ⟨hmid, heven, hr⟩ | ⟨hmid, hodd, hr⟩
  · refine ⟨_, nearestMag_lower (by linarith) ?_ fun e => ?_, hr⟩
    · linarith [hle.1 hmid]
    · have := heven (htie (by linarith))
      omega
  · refine ⟨_, nearestMag_upper (by linarith) ?_ fun e => ?_, hr⟩
    · linarith [hge.1 hmid]
    · have := hodd (htie (by linarith))
      omega

/-! ### From magnitudes to patterns -/

theorem signFactor_bne (neg neg' : Bool) :
    signFactor (neg != neg') = signFactor neg * signFactor neg' := by
  cases neg <;> cases neg' <;> rfl

theorem signFactor_not (neg : Bool) : signFactor (!neg) = -signFactor neg := by cases neg <;> rfl

theorem abs_signFactor (neg : Bool) : |(signFactor neg : ℝ)| = 1 := by cases neg <;> simp [signFactor]

theorem valueOf_pack {neg : Bool} {m : Nat} (hm : m < 0x80000000) :
    (valueOf (pack neg m) : ℝ) = signFactor neg * magOfBits m / 2 ^ 149 := by
  rw [valueOf, fixedOf_pack hm]
  push_cast
  rfl

theorem roundMag_le (num den : Nat) : roundMag num den ≤ 0x7F800000 := min_le_right _ _

theorem abs_signFactor_mul (neg : Bool) (x : ℝ) : |(signFactor neg : ℝ) * x| = |x| := by
  rw [abs_mul, abs_signFactor, one_mul]

theorem abs_sub_of_same_sign (neg : Bool) (x t : ℝ) :
    |signFactor neg * x / 2 ^ 149 - signFactor neg * t / 2 ^ 149| = |x - t| / 2 ^ 149 := by
  rw [← sub_div, ← mul_sub, abs_div, abs_signFactor_mul, abs_of_pos (by positivity : (0 : ℝ) < 2 ^ 149)]

theorem abs_sub_of_opposite_sign (neg : Bool) {x t : ℝ} (hx : 0 ≤ x) (ht : 0 ≤ t) :
    |signFactor (!neg) * x / 2 ^ 149 - signFactor neg * t / 2 ^ 149| = (x + t) / 2 ^ 149 := by
  have h := abs_sub_of_same_sign neg (-x) t
  rw [abs_of_nonpos (by linarith : -x - t ≤ 0)] at h
  rw [signFactor_not]
  push_cast
  rw [neg_mul, ← mul_neg, h]
  ring

/-- Where the nearest magnitude is finite, the pattern of either sign with it is nearest to the value of
that sign: the values of the other sign are no nearer than the zero. -/
theorem NearestMag.nearestEven {t : ℝ} {b : Nat} (ht : 0 ≤ t) (h : NearestMag t b) (hb : b < 0x7F800000)
    (neg : Bool) : NearestEven (signFactor neg * t / 2 ^ 149) (pack neg b) := by
  have hb31 : b < 0x80000000 := by omega
  have hfrac : fracField (pack neg b) % 2 = b % 2 := by rw [fracField_pack hb31]; omega
  refine ⟨by rw [isFin_pack hb31, decide_eq_true hb], fun y hy => ?_⟩
  obtain ⟨neg', j, hj, rfl⟩ := exists_eq_pack y
  rw [valueOf_pack hb31, valueOf_pack hj, abs_sub_of_same_sign, hfrac]
  rcases Bool.eq_or_eq_not neg' neg with rfl | rfl
  · rw [abs_sub_of_same_sign, div_le_div_iff_of_pos_right (by positivity), div_left_inj' (by positivity)]
    exact ⟨(h j).1, fun heq hne => (h j).2 heq (by rintro rfl; exact hne rfl)⟩
  · obtain ⟨hle, htie⟩ := h 0
    have hV : (0 : ℝ) ≤ magOfBits j := by positivity
    rw [magOfBits_zero, Nat.cast_zero, zero_sub, abs_neg, abs_of_nonneg ht] at hle htie
    rw [abs_sub_of_opposite_sign neg hV ht, div_le_div_iff_of_pos_right (by positivity),
      div_left_inj' (by positivity)]
    refine ⟨by linarith, fun heq _ => ?_⟩
    by_cases hb0 : b = 0
    · rw [hb0]
    · exact htie (by linarith) (Ne.symm hb0)

/-- Nearest magnitude bits, capped at the infinity, are the pattern rounded once (R17). -/
theorem NearestMag.roundsTo {t : ℝ} {b : Nat} (ht : 0 ≤ t) (h : NearestMag t b) (neg : Bool) :
    roundsTo (signFactor neg * t / 2 ^ 149) (pack neg (min b 0x7F800000)) := by
  have hbound : (2 ^ 128 - 2 ^ 103 : ℝ) = (2 ^ 25 - 1) * 2 ^ 252 / 2 ^ 149 := by norm_num
  have hpos : (0 : ℝ) < (2 ^ 25 - 1) * 2 ^ 252 / 2 ^ 149 := by positivity
  have habs : |(signFactor neg : ℝ) * t / 2 ^ 149| = t / 2 ^ 149 := by
    rw [mul_div_assoc, abs_signFactor_mul, abs_of_nonneg (by positivity)]
  have hover : (2 ^ 25 - 1) * 2 ^ 252 / 2 ^ 149 ≤ t / 2 ^ 149 → min b 0x7F800000 = 0x7F800000 := by
    intro hle
    rw [div_le_div_iff_of_pos_right (by positivity), ← not_lt, ← h.lt_infinity_iff] at hle
    omega
  have ht' : 0 ≤ t / 2 ^ 149 := by positivity
  rw [Machine.roundsTo, hbound, habs, div_lt_div_iff_of_pos_right (by positivity), ← h.lt_infinity_iff]
  refine ⟨fun hb => ?_, fun hx => ?_, fun hx => ?_⟩
  · rw [min_eq_left hb.le]
    exact h.nearestEven ht hb neg
  · cases neg
    · rw [hover (by simpa only [signFactor, Bool.false_eq_true, if_false, Int.cast_one, one_mul] using hx)]
      rfl
    · simp only [signFactor, if_true, Int.cast_neg, Int.cast_one, neg_one_mul, neg_div] at hx
      linarith
  · cases neg
    · simp only [signFactor, Bool.false_eq_true, if_false, Int.cast_one, one_mul] at hx
      linarith
    · simp only [signFactor, if_true, Int.cast_neg, Int.cast_one, neg_one_mul, neg_div, neg_le_neg_iff] at hx
      rw [hover hx]
      rfl

/-- Rounding the magnitude and packing it with the sign is rounding once (R17). -/
theorem roundsTo_pack_roundMag {num den : Nat} {t : ℝ} (hden : 0 < den) (ht : 0 ≤ t)
    (h : RoundsAlike num den t) (neg : Bool) :
    roundsTo (signFactor neg * t / 2 ^ 149) (pack neg (roundMag num den)) := by
  obtain ⟨b, hb, hround⟩ := exists_nearestMag_roundMag hden h
  rw [hround]
  exact hb.roundsTo ht neg

/-- A representable magnitude below the infinity is rounded to itself. -/
theorem roundMag_exact {m : Nat} (hm : m < 0x7F800000) : roundMag (magOfBits m) 1 = m := by
  have halike := roundsAlike_div (magOfBits m) one_pos
  rw [Nat.cast_one, div_one] at halike
  obtain ⟨b, hb, hround⟩ := exists_nearestMag_roundMag one_pos halike
  rw [hround, hb.eq_of_exact, min_eq_left hm.le]

theorem signBit_pack_roundMag (neg : Bool) (num den : Nat) :
    signBit (pack neg (roundMag num den)) = neg :=
  signBit_pack ((roundMag_le num den).trans_lt (by decide))

end Sys2Proof.Machine
end

/-! PROOF. The rounded operations of 00_scope.md R17 on finite operands: sum, difference,
product and quotient. -/

section
namespace Sys2Proof.Machine

/-! ### Readings of a pattern, and of its negation -/

theorem fixedOf_eq (w : Word) : fixedOf w = signFactor (signBit w) * magOf w := by
  rw [fixedOf]
  cases signBit w <;> simp [signFactor]

theorem cast_valueOf (w : Word) : (valueOf w : ℝ) = fixedOf w / 2 ^ 149 := by
  rw [valueOf]
  push_cast
  rfl

theorem valueOf_eq_zero_iff {w : Word} : valueOf w = 0 ↔ isZero w = true := by
  obtain ⟨neg, m, hm, rfl⟩ := exists_eq_pack w
  rw [valueOf, fixedOf_pack hm, isZero_pack hm]
  cases neg <;> simp [signFactor, magOfBits_eq_zero]

theorem valueOf_neg_iff {w : Word} : valueOf w < 0 ↔ signBit w = true ∧ isZero w = false := by
  obtain ⟨neg, m, hm, rfl⟩ := exists_eq_pack w
  rw [valueOf, fixedOf_pack hm, isZero_pack hm, signBit_pack hm, div_lt_iff₀ (by positivity), zero_mul]
  cases neg <;> simp [signFactor, magOfBits_eq_zero, Nat.pos_iff_ne_zero]

theorem magOf_pos_iff {w : Word} : 0 < magOf w ↔ isZero w = false := by
  obtain ⟨neg, m, hm, rfl⟩ := exists_eq_pack w
  simp [hm, Nat.pos_iff_ne_zero, magOfBits_eq_zero]

theorem not_isNaN_of_isFin {w : Word} (h : isFin w = true) : isNaN w = false := by
  simp_all [isFin, isNaN]

theorem not_isInf_of_isFin {w : Word} (h : isFin w = true) : isInf w = false := by
  simp_all [isFin, isInf]

@[simp] theorem signBit_fneg (w : Word) : signBit (fneg w) = !signBit w := by
  obtain ⟨neg, m, hm, rfl⟩ := exists_eq_pack w
  simp [hm]

@[simp] theorem isNaN_fneg (w : Word) : isNaN (fneg w) = isNaN w := by
  obtain ⟨neg, m, hm, rfl⟩ := exists_eq_pack w
  simp [hm]

@[simp] theorem isFin_fneg (w : Word) : isFin (fneg w) = isFin w := by
  obtain ⟨neg, m, hm, rfl⟩ := exists_eq_pack w
  simp [hm]

@[simp] theorem fixedOf_fneg (w : Word) : fixedOf (fneg w) = -fixedOf w := by
  obtain ⟨neg, m, hm, rfl⟩ := exists_eq_pack w
  rw [fneg_pack hm, fixedOf_pack hm, fixedOf_pack hm, signFactor_not, neg_mul]

@[simp] theorem valueOf_fneg (w : Word) : valueOf (fneg w) = -valueOf w := by
  rw [valueOf, valueOf, fixedOf_fneg, Int.cast_neg, neg_div]

/-! ### Sums and differences -/

theorem fadd_of_isFin {a b : Word} (ha : isFin a = true) (hb : isFin b = true) :
    fadd a b = if fixedOf a + fixedOf b = 0 then pack (signBit a && signBit b) 0
      else pack (decide (fixedOf a + fixedOf b < 0)) (roundMag (fixedOf a + fixedOf b).natAbs 1) := by
  simp only [fadd, not_isNaN_of_isFin ha, not_isNaN_of_isFin hb, not_isInf_of_isFin ha,
    not_isInf_of_isFin hb, Bool.or_false, Bool.false_eq_true, if_false]
  cases signBit a && signBit b <;> rfl

theorem signFactor_mul_natAbs (e : Int) : signFactor (decide (e < 0)) * e.natAbs = e := by
  by_cases h : e < 0
  · rw [decide_eq_true h, signFactor, if_pos rfl]
    omega
  · rw [decide_eq_false h, signFactor, if_neg Bool.false_ne_true]
    omega

theorem roundsTo_zero (neg : Bool) : roundsTo 0 (pack neg 0) := by
  have h : NearestMag 0 0 := nearestMag_lower (by simp) (by simp) fun _ => rfl
  simpa using h.roundsTo le_rfl neg

theorem fadd_roundsTo {a b : Word} (ha : isFin a = true) (hb : isFin b = true) :
    roundsTo ((valueOf a : ℝ) + valueOf b) (fadd a b) := by
  rw [fadd_of_isFin ha hb, cast_valueOf, cast_valueOf, ← add_div, ← Int.cast_add]
  generalize fixedOf a + fixedOf b = e
  split_ifs with he
  · simpa [he] using roundsTo_zero _
  · have h := roundsTo_pack_roundMag one_pos (by positivity) (roundsAlike_div e.natAbs one_pos)
      (decide (e < 0))
    rwa [Nat.cast_one, div_one, ← Int.cast_natCast, ← Int.cast_mul, signFactor_mul_natAbs] at h

/-- An exact zero sum is −0 only of −0 and −0 (R17). -/
theorem fadd_of_sum_zero {a b : Word} (ha : isFin a = true) (hb : isFin b = true)
    (h : valueOf a + valueOf b = 0) :
    fadd a b = if signBit a = true ∧ signBit b = true then 0x80000000#32 else 0x00000000#32 := by
  have he : fixedOf a + fixedOf b = 0 := by
    rw [valueOf, valueOf, ← add_div, div_eq_zero_iff] at h
    exact_mod_cast h.resolve_right (by positivity)
  rw [fadd_of_isFin ha hb, if_pos he]
  cases signBit a <;> cases signBit b <;> rfl

/-- Settles O33: both operations round the exact integer sum of the operands' fixed-point values, and a
difference is the sum with the negated operand. -/
theorem addSubRounded : Obligations.AddSubRounded := by
  unfold Obligations.AddSubRounded
  intro a b ha hb
  have hb' : isFin (fneg b) = true := by rwa [isFin_fneg]
  refine ⟨fadd_roundsTo ha hb, ?_, fadd_of_sum_zero ha hb, fun h => ?_⟩
  · have h := fadd_roundsTo ha hb'
    rwa [valueOf_fneg, Rat.cast_neg, ← sub_eq_add_neg] at h
  · simp only [fsub, fadd_of_sum_zero ha hb' (by rwa [valueOf_fneg, ← sub_eq_add_neg]), signBit_fneg,
      Bool.not_eq_true']

/-! ### Products and quotients -/

theorem fmul_of_isFin {a b : Word} (ha : isFin a = true) (hb : isFin b = true) :
    fmul a b = pack (signBit a != signBit b) (roundMag (magOf a * magOf b) (2 ^ 149)) := by
  simp only [fmul, not_isNaN_of_isFin ha, not_isNaN_of_isFin hb, not_isInf_of_isFin ha,
    not_isInf_of_isFin hb, Bool.or_false, Bool.false_eq_true, if_false]

theorem fdiv_of_isFin {a b : Word} (ha : isFin a = true) (hb : isFin b = true) (h0 : isZero b = false) :
    fdiv a b = pack (signBit a != signBit b) (roundMag (magOf a * 2 ^ 149) (magOf b)) := by
  simp only [fdiv, not_isNaN_of_isFin ha, not_isNaN_of_isFin hb, not_isInf_of_isFin ha,
    not_isInf_of_isFin hb, h0, Bool.or_false, Bool.false_eq_true, if_false]

theorem fmul_roundsTo {a b : Word} (ha : isFin a = true) (hb : isFin b = true) :
    roundsTo ((valueOf a : ℝ) * valueOf b) (fmul a b) := by
  have h := roundsTo_pack_roundMag (by positivity) (by positivity)
    (roundsAlike_div (magOf a * magOf b) (show 0 < 2 ^ 149 by positivity)) (signBit a != signBit b)
  rw [fmul_of_isFin ha hb, cast_valueOf, cast_valueOf, fixedOf_eq, fixedOf_eq]
  rw [signFactor_bne] at h
  convert h using 1
  push_cast
  ring

theorem fdiv_roundsTo {a b : Word} (ha : isFin a = true) (hb : isFin b = true) (h0 : isZero b = false) :
    roundsTo ((valueOf a : ℝ) / valueOf b) (fdiv a b) := by
  have hpos : 0 < magOf b := magOf_pos_iff.2 h0
  have h := roundsTo_pack_roundMag hpos (by positivity)
    (roundsAlike_div (magOf a * 2 ^ 149) hpos) (signBit a != signBit b)
  rw [fdiv_of_isFin ha hb h0, cast_valueOf, cast_valueOf, fixedOf_eq, fixedOf_eq]
  have hs : (signFactor (signBit b) : ℝ)⁻¹ = signFactor (signBit b) := by
    cases signBit b <;> norm_num [signFactor]
  rw [signFactor_bne] at h
  convert h using 1
  simp only [Nat.cast_mul, Nat.cast_pow, Nat.cast_ofNat, Int.cast_mul, Int.cast_natCast]
  rw [div_div_div_cancel_right₀ (by positivity), mul_div_mul_comm, div_eq_mul_inv, hs,
    mul_div_right_comm (magOf a : ℝ), ← mul_assoc, mul_div_cancel_right₀ _ (by positivity)]

/-- Settles O34: the magnitudes' exact product or quotient is rounded once and packed with the exclusive or
of the operands' signs. -/
theorem mulDivRounded : Obligations.MulDivRounded := by
  unfold Obligations.MulDivRounded
  intro a b ha hb
  refine ⟨fmul_roundsTo ha hb, ?_, fun hne => ?_⟩
  · rw [fmul_of_isFin ha hb, signBit_pack_roundMag]
  · have h0 : isZero b = false := by rwa [ne_eq, valueOf_eq_zero_iff, Bool.not_eq_true] at hne
    refine ⟨fdiv_roundsTo ha hb h0, ?_⟩
    rw [fdiv_of_isFin ha hb h0, signBit_pack_roundMag]

end Sys2Proof.Machine
end

/-! PROOF. Square root, floor, comparison and negation (00_scope.md R17). -/

section
namespace Sys2Proof.Machine

/-! ### The square root -/

theorem isqrtFrom_spec (n : Nat) : ∀ fuel r : Nat, r * r ≤ n → n < (r + 2 ^ fuel) * (r + 2 ^ fuel) →
    isqrtFrom n fuel r * isqrtFrom n fuel r ≤ n ∧
      n < (isqrtFrom n fuel r + 1) * (isqrtFrom n fuel r + 1)
  | 0, _, hlo, hhi => ⟨hlo, hhi⟩
  | fuel + 1, r, hlo, hhi => by
    rw [isqrtFrom]
    rw [pow_succ, mul_two, ← Nat.add_assoc] at hhi
    split_ifs with hbit
    · exact isqrtFrom_spec n fuel _ hbit hhi
    · exact isqrtFrom_spec n fuel _ hlo (not_le.1 hbit)

theorem isqrt_eq_sqrt (n : Nat) : isqrt n = n.sqrt := by
  have hlog : n < 2 ^ (n.log2 + 1) := Nat.lt_log2_self
  have hhi : n < (0 + 2 ^ (n.log2 / 2 + 1)) * (0 + 2 ^ (n.log2 / 2 + 1)) := by
    rw [Nat.zero_add, ← pow_add]
    exact hlog.trans_le (Nat.pow_le_pow_right (by decide) (by omega))
  obtain ⟨hlo, hlt⟩ := isqrtFrom_spec n _ 0 (Nat.zero_le _) hhi
  exact Nat.eq_sqrt.2 ⟨hlo, hlt⟩

/-- The integer root with half a unit for an inexact remainder compares with every integer as the real root
does; the root of a number from 2^149 on has a unit of 2 or more. -/
theorem roundsAlike_sqrt {n : Nat} (hn : 2 ^ 149 ≤ n) :
    RoundsAlike (if n.sqrt * n.sqrt = n then 2 * n.sqrt else 2 * n.sqrt + 1) 2 (Real.sqrt n) := by
  have hbig : 2 ^ 24 ≤ n.sqrt := by
    rw [Nat.le_sqrt]
    exact le_trans (by norm_num) hn
  rintro c (hc | ⟨d, rfl⟩)
  · split_ifs at hc <;> omega
  · have hle : Real.sqrt n ≤ d ↔ n ≤ d * d := by
      rw [Real.sqrt_le_left d.cast_nonneg, sq]
      exact_mod_cast Iff.rfl
    have hge : (d : ℝ) ≤ Real.sqrt n ↔ d ≤ n.sqrt := by
      rw [Real.le_sqrt d.cast_nonneg n.cast_nonneg, Nat.le_sqrt, sq]
      exact_mod_cast Iff.rfl
    have hlt : n < d * d ↔ n.sqrt < d := Nat.sqrt_lt.symm
    have htwice : ((d + d : Nat) : ℝ) = 2 * d := by push_cast; ring
    rw [htwice, mul_le_mul_iff_right₀ two_pos, mul_le_mul_iff_right₀ two_pos, hle, hge]
    split_ifs with hsq
    · have hroot : n ≤ d * d ↔ n.sqrt ≤ d := by
        rw [← Nat.mul_self_le_mul_self_iff (m := n.sqrt), hsq]
      omega
    · have hroot : n ≤ d * d ↔ n.sqrt < d := by
        rw [Nat.sqrt_lt]
        refine ⟨fun h => lt_of_le_of_ne h ?_, le_of_lt⟩
        rintro rfl
        exact hsq (by rw [Nat.sqrt_eq])
      omega

theorem fsqrt_of_isFin {a : Word} (ha : isFin a = true) (h0 : isZero a = false) :
    fsqrt a = if signBit a = true then canonNaN
      else let n := magOf a * 2 ^ 149
        pack false (roundMag (if n.sqrt * n.sqrt = n then 2 * n.sqrt else 2 * n.sqrt + 1) 2) := by
  simp only [fsqrt, not_isNaN_of_isFin ha, not_isInf_of_isFin ha, h0, isqrt_eq_sqrt, Bool.false_eq_true,
    if_false]

theorem not_isNaN_of_isZero {a : Word} (h0 : isZero a = true) : isNaN a = false := by
  simp_all [isZero, isNaN]

theorem fsqrt_of_isZero {a : Word} (h0 : isZero a = true) : fsqrt a = a := by
  rw [fsqrt, not_isNaN_of_isZero h0, h0, if_neg Bool.false_ne_true, if_pos rfl]

theorem fsqrt_roundsTo {a : Word} (ha : isFin a = true) (h0 : isZero a = false)
    (hs : signBit a = false) : roundsTo (Real.sqrt (valueOf a : ℝ)) (fsqrt a) := by
  have hpos : 0 < magOf a := magOf_pos_iff.2 h0
  have hbig : 2 ^ 149 ≤ magOf a * 2 ^ 149 := Nat.le_mul_of_pos_left _ hpos
  have h := roundsTo_pack_roundMag two_pos (Real.sqrt_nonneg _) (roundsAlike_sqrt hbig) false
  rw [fsqrt_of_isFin ha h0, hs, if_neg Bool.false_ne_true]
  convert h using 1
  rw [cast_valueOf, fixedOf_eq, hs, signFactor, if_neg Bool.false_ne_true, one_mul, Int.cast_one, one_mul,
    show ((magOf a : Int) : ℝ) / 2 ^ 149 = magOf a * 2 ^ 149 / (2 ^ 149) ^ 2 by field_simp; rfl,
    Real.sqrt_div (by positivity), Real.sqrt_sq (by positivity)]
  simp only [Nat.cast_mul, Nat.cast_pow, Nat.cast_ofNat]

theorem isZero_pack_iff {a : Word} : isZero a = true ↔ ∃ neg, a = pack neg 0 := by
  obtain ⟨neg, m, hm, rfl⟩ := exists_eq_pack a
  constructor
  · intro h
    rw [isZero_pack hm, decide_eq_true_eq] at h
    exact ⟨neg, by rw [h]⟩
  · rintro ⟨neg', h⟩
    rw [h, isZero_pack (by decide)]
    rfl

/-- Settles O35: the integer root with a sticky half unit rounds as the real root does. -/
theorem sqrtRounded : Obligations.SqrtRounded := by
  unfold Obligations.SqrtRounded
  intro a ha
  rw [valueOf_eq_zero_iff, ← not_lt, valueOf_neg_iff]
  cases h0 : isZero a
  · refine ⟨fun hs => fsqrt_roundsTo ha h0 (by simpa using hs), by simp, fun hs => ?_⟩
    rw [fsqrt_of_isFin ha h0, if_pos hs.1]
    rfl
  · refine ⟨fun _ => ?_, fun _ => fsqrt_of_isZero h0, by simp⟩
    obtain ⟨neg, rfl⟩ := isZero_pack_iff.1 h0
    rw [fsqrt_of_isZero h0, valueOf_eq_zero_iff.2 h0, Rat.cast_zero, Real.sqrt_zero]
    exact roundsTo_zero neg

/-! ### Floor and comparison -/

/-- A significand of at most 24 bits, the carry included, has its magnitude bits at every unit. -/
theorem exists_magOfBits_eq : ∀ (e : Nat) {c : Nat}, c ≤ 2 ^ 24 → ∃ m, magOfBits m = c * 2 ^ e
  | 0, c, hc => ⟨0 * 2 ^ 23 + c, magOfBits_packed hc (.inl rfl)⟩
  | e + 1, c, hc => by
    rcases le_or_gt (2 ^ 23) c with h | h
    · exact ⟨_, magOfBits_packed hc (.inr h)⟩
    · obtain ⟨m, hm⟩ := exists_magOfBits_eq e (show 2 * c ≤ 2 ^ 24 by omega)
      exact ⟨m, by rw [hm, pow_succ]; ring⟩

theorem isFin_pack_iff {a : Word} : isFin a = true ↔ ∃ neg m, m < 0x7F800000 ∧ a = pack neg m := by
  obtain ⟨neg, m, hm, rfl⟩ := exists_eq_pack a
  constructor
  · intro h
    rw [isFin_pack hm, decide_eq_true_eq] at h
    exact ⟨neg, m, h, rfl⟩
  · rintro ⟨neg', m', h', h⟩
    rw [h, isFin_pack (by omega), decide_eq_true h']

/-- The integer floor of a finite value is representable: either every multiple of the operand's unit is an
integer, and the operand is its own floor, or the floor is at most 2^23 in magnitude. -/
theorem exists_magOfBits_floor {a : Word} (ha : isFin a = true) :
    ∃ m, m < 0x7F800000 ∧ magOfBits m = (fixedOf a / 2 ^ 149).natAbs * 2 ^ 149 := by
  obtain ⟨neg, m, hm, rfl⟩ := isFin_pack_iff.1 ha
  rw [fixedOf_pack (by omega)]
  obtain ⟨k, q, hq, hk, hkq⟩ := exists_packed m
  have hV : magOfBits m = q * 2 ^ k := by rw [hkq, magOfBits_packed hq.le hk]
  have habs : (signFactor neg * (magOfBits m : Int)).natAbs = magOfBits m := by
    cases neg <;> simp [signFactor]
  rcases le_or_gt 149 k with hint | hfrac
  · have hdvd : (2 ^ 149 : Int) ∣ signFactor neg * (magOfBits m : Int) := by
      rw [hV]
      push_cast
      exact ((pow_dvd_pow 2 hint).mul_left _).mul_left _
    refine ⟨m, hm, ?_⟩
    calc magOfBits m = (signFactor neg * (magOfBits m : Int) / 2 ^ 149 * 2 ^ 149).natAbs := by
          rw [Int.ediv_mul_cancel hdvd, habs]
      _ = _ := by rw [Int.natAbs_mul]; rfl
  · have hle : magOfBits m ≤ 2 ^ 23 * 2 ^ 149 := by
      have hpow : 2 ^ k ≤ 2 ^ 148 := Nat.pow_le_pow_right (by decide) (by omega)
      calc magOfBits m = q * 2 ^ k := hV
        _ ≤ 2 ^ 24 * 2 ^ 148 := Nat.mul_le_mul hq.le hpow
        _ = _ := by norm_num
    have hfloor : (signFactor neg * (magOfBits m : Int) / 2 ^ 149).natAbs ≤ 2 ^ 24 := by omega
    obtain ⟨j, hj⟩ := exists_magOfBits_eq 149 hfloor
    refine ⟨j, magOfBits_strictMono.lt_iff_lt.1 ?_, hj⟩
    rw [hj, magOfBits_infinity]
    exact lt_of_le_of_lt (Nat.mul_le_mul_right _ hfloor) (by norm_num)

theorem ffloor_of_isFin {a : Word} (ha : isFin a = true) (h0 : isZero a = false) :
    ffloor a = pack (decide (fixedOf a / 2 ^ 149 < 0))
      (roundMag ((fixedOf a / 2 ^ 149).natAbs * 2 ^ 149) 1) := by
  simp only [ffloor, not_isNaN_of_isFin ha, not_isInf_of_isFin ha, h0, Bool.or_false, Bool.false_eq_true,
    if_false]

theorem ffloor_of_isZero {a : Word} (h0 : isZero a = true) : ffloor a = a := by
  rw [ffloor, not_isNaN_of_isZero h0, h0, Bool.or_true, if_neg Bool.false_ne_true, if_pos rfl]

theorem floor_valueOf (a : Word) : ⌊valueOf a⌋ = fixedOf a / 2 ^ 149 := by
  have h := Rat.floor_intCast_div_natCast (fixedOf a) (2 ^ 149)
  rwa [Nat.cast_pow, Nat.cast_ofNat, Nat.cast_pow, Nat.cast_ofNat] at h

/-- `floor` of a finite non-zero operand: the pattern of its integer floor, exactly (R17). -/
theorem ffloor_spec {a : Word} (ha : isFin a = true) (h0 : isZero a = false) :
    isFin (ffloor a) = true ∧ valueOf (ffloor a) = ((⌊valueOf a⌋ : ℤ) : ℚ) ∧
      signBit (ffloor a) = signBit a := by
  obtain ⟨m, hm, hV⟩ := exists_magOfBits_floor ha
  have hm31 : m < 0x80000000 := by omega
  have hsign : (fixedOf a / 2 ^ 149 < 0) ↔ signBit a = true := by
    have hneg := (valueOf_neg_iff (w := a))
    rw [← floor_valueOf, Int.floor_lt, Int.cast_zero, hneg]
    simp [h0]
  rw [ffloor_of_isFin ha h0, ← hV, roundMag_exact hm, floor_valueOf]
  refine ⟨by rw [isFin_pack hm31, decide_eq_true hm], ?_, ?_⟩
  · rw [valueOf, fixedOf_pack hm31, hV, Nat.cast_mul, ← mul_assoc, signFactor_mul_natAbs, Nat.cast_pow,
      Nat.cast_ofNat, Int.cast_mul, Int.cast_pow, Int.cast_ofNat, mul_div_cancel_right₀ _ (by positivity)]
  · rw [signBit_pack hm31, Bool.eq_iff_iff, decide_eq_true_eq, hsign]

theorem flt_iff_valueOf {a b : Word} (ha : isNaN a = false) (hb : isNaN b = false) :
    flt a b = true ↔ valueOf a < valueOf b := by
  rw [valueOf, valueOf, div_lt_div_iff_of_pos_right (by positivity), flt, ha, hb]
  simp

/-- `neg` flips bit 31 of any word and no other bit (R17). -/
theorem getLsbD_fneg (a : Word) (k : Nat) :
    (fneg a).getLsbD k = if k = 31 then !a.getLsbD k else a.getLsbD k := by
  have hmask : (0x80000000#32).getLsbD k = decide (k = 31) := by
    rw [show 0x80000000#32 = BitVec.twoPow 32 31 from rfl, BitVec.getLsbD_twoPow]
    simp [eq_comm]
  rw [fneg, BitVec.getLsbD_xor, hmask]
  by_cases h : k = 31 <;> simp [h]

/-- Settles O36: a zero is its own floor, any other finite operand's floor is representable; the values
compare as the fixed-point integers do. -/
theorem floorLtNeg : Obligations.FloorLtNeg := by
  unfold Obligations.FloorLtNeg
  refine ⟨fun a b ha hb => ?_, fun a k _ => getLsbD_fneg a k⟩
  have hfloor : isFin (ffloor a) = true ∧ valueOf (ffloor a) = ((⌊valueOf a⌋ : ℤ) : ℚ) ∧
      signBit (ffloor a) = signBit a := by
    cases h0 : isZero a
    · exact ffloor_spec ha h0
    · rw [ffloor_of_isZero h0, valueOf_eq_zero_iff.2 h0]
      exact ⟨ha, by simp, rfl⟩
  obtain ⟨hfin, hval, hsign⟩ := hfloor
  exact ⟨hfin, hval, hsign, flt_iff_valueOf (not_isNaN_of_isFin ha) (not_isNaN_of_isFin hb),
    valueOf_fneg a⟩

end Sys2Proof.Machine
end

/-! PROOF. The operands that are no finite numbers (00_scope.md R17), and the laws of the trigonometric
functions (R10). -/

section
namespace Sys2Proof.Machine

/-! ### NaNs, infinities, division by zero -/

/-- The infinity of either sign. -/
def infinity (neg : Bool) : Word := pack neg 0x7F800000

theorem fixedOf_infinity (neg : Bool) :
    fixedOf (infinity neg) = signFactor neg * magOfBits 0x7F800000 := fixedOf_pack (by decide)

theorem mem_infinities_iff {c : Word} :
    c ∈ [0x7F800000#32, 0xFF800000#32] ↔ ∃ neg, c = infinity neg := by
  rw [Bool.exists_bool]
  simp [infinity, pack]

theorem mem_zeros_iff {z : Word} : z ∈ [0x00000000#32, 0x80000000#32] ↔ ∃ neg, z = pack neg 0 := by
  rw [Bool.exists_bool]
  simp [pack]

theorem operations_of_isNaN {a b : Word} (h : isNaN a = true ∨ isNaN b = true) :
    fadd a b = canonNaN ∧ fmul a b = canonNaN ∧ fdiv a b = canonNaN ∧ flt a b = false := by
  have h' : (isNaN a || isNaN b) = true := by rwa [Bool.or_eq_true]
  refine ⟨by rw [fadd, if_pos h'], by rw [fmul, if_pos h'], by rw [fdiv, if_pos h'], ?_⟩
  rcases h with h | h <;> simp [flt, h]

theorem fmul_comm (a b : Word) : fmul a b = fmul b a := by
  simp only [fmul, Bool.or_comm, bne_comm, Nat.mul_comm]

@[simp] theorem signBit_infinity (neg : Bool) : signBit (infinity neg) = neg := signBit_pack (by decide)
@[simp] theorem isNaN_infinity (neg : Bool) : isNaN (infinity neg) = false := isNaN_pack (by decide)
@[simp] theorem isInf_infinity (neg : Bool) : isInf (infinity neg) = true := isInf_pack (by decide)
@[simp] theorem isZero_infinity (neg : Bool) : isZero (infinity neg) = false := isZero_pack (by decide)
@[simp] theorem fneg_infinity (neg : Bool) : fneg (infinity neg) = infinity (!neg) := fneg_pack (by decide)

section
variable {a : Word} (ha : isFin a = true) (neg : Bool)
include ha

theorem fadd_infinity_right : fadd a (infinity neg) = infinity neg := by
  simp [fadd, not_isNaN_of_isFin ha, not_isInf_of_isFin ha]

theorem fadd_infinity_left : fadd (infinity neg) a = infinity neg := by
  simp [fadd, not_isNaN_of_isFin ha, not_isInf_of_isFin ha]

theorem fmul_infinity_right :
    fmul a (infinity neg) = if isZero a = true then canonNaN else infinity (signBit a != neg) := by
  simp [fmul, not_isNaN_of_isFin ha, infinity]

theorem fdiv_infinity_right : fdiv a (infinity neg) = pack (signBit a != neg) 0 := by
  simp [fdiv, not_isNaN_of_isFin ha, not_isInf_of_isFin ha]

theorem fdiv_infinity_left : fdiv (infinity neg) a = infinity (signBit a != neg) := by
  simp [fdiv, not_isNaN_of_isFin ha, not_isInf_of_isFin ha, bne_comm, infinity]

theorem abs_fixedOf_lt_infinity : |fixedOf a| < magOfBits 0x7F800000 := by
  obtain ⟨neg, m, hm, rfl⟩ := isFin_pack_iff.1 ha
  rw [fixedOf_pack (by omega), abs_mul]
  have hlt : (magOfBits m : Int) < magOfBits 0x7F800000 := by exact_mod_cast magOfBits_strictMono hm
  cases neg <;> simpa [signFactor] using hlt

theorem flt_infinity_right : flt a (infinity neg) = !neg := by
  obtain ⟨hlo, hhi⟩ := abs_lt.1 (abs_fixedOf_lt_infinity ha)
  rw [flt, not_isNaN_of_isFin ha, isNaN_infinity, fixedOf_infinity]
  cases neg <;> simp [signFactor] <;> omega

theorem flt_infinity_left : flt (infinity neg) a = neg := by
  obtain ⟨hlo, hhi⟩ := abs_lt.1 (abs_fixedOf_lt_infinity ha)
  rw [flt, not_isNaN_of_isFin ha, isNaN_infinity, fixedOf_infinity]
  cases neg <;> simp [signFactor] <;> omega

theorem fdiv_zero :
    fdiv a (pack neg 0) = if isZero a = true then canonNaN else infinity (signBit a != neg) := by
  simp [fdiv, not_isNaN_of_isFin ha, not_isInf_of_isFin ha, infinity]

end

theorem operations_of_infinities (s t : Bool) :
    fadd (infinity s) (infinity t) = (if s = t then infinity s else canonNaN) ∧
    fmul (infinity s) (infinity t) = infinity (s != t) ∧ fdiv (infinity s) (infinity t) = canonNaN ∧
    flt (infinity s) (infinity t) = (s && !t) := by
  refine ⟨?_, by simp [fmul, infinity], by simp [fdiv], ?_⟩
  · cases s <;> cases t <;> simp [fadd]
  · have hpos : 0 < magOfBits 0x7F800000 := by rw [magOfBits_infinity]; positivity
    rw [flt, isNaN_infinity, isNaN_infinity, fixedOf_infinity, fixedOf_infinity]
    cases s <;> cases t <;> simp [signFactor]
    omega

theorem infinity_inj {s t : Bool} : infinity s = infinity t ↔ s = t :=
  ⟨fun h => by simpa using congrArg signBit h, fun h => by rw [h]⟩

theorem posInf_literal : 0x7F800000#32 = infinity false := rfl
theorem negInf_literal : 0xFF800000#32 = infinity true := rfl
theorem canonNaN_literal : 0x7FC00000#32 = canonNaN := rfl
theorem posZero_literal : 0x00000000#32 = pack false 0 := rfl
theorem negZero_literal : 0x80000000#32 = pack true 0 := rfl

/-- Settles O37: each operand that is no finite number is a NaN or the infinity of some sign, and every
operation's result on it is said once above. -/
theorem specialOperands : Obligations.SpecialOperands := by
  unfold Obligations.SpecialOperands
  refine ⟨fun a b h => ?_, fun a h => ?_, fun a ha c hc => ?_, fun a ha z hz => ?_,
    fun c hc d hd => ?_, by decide, by decide, by decide, by decide⟩
  · obtain ⟨hadd, hmul, hdiv, hlt⟩ := operations_of_isNaN h
    have hsub := (operations_of_isNaN (a := a) (b := fneg b) (by rwa [isNaN_fneg])).1
    exact ⟨hadd, hsub, hmul, hdiv, hlt⟩
  · rw [fsqrt, if_pos h]
    rfl
  · obtain ⟨neg, rfl⟩ := mem_infinities_iff.1 hc
    have hneg : isFin (fneg a) = true := by rwa [isFin_fneg]
    simp only [posInf_literal, negInf_literal, canonNaN_literal, posZero_literal, negZero_literal,
      infinity_inj, signBit_infinity, fsub, fneg_infinity, fmul_comm _ a, valueOf_eq_zero_iff,
      fadd_infinity_right ha, fadd_infinity_left ha, fadd_infinity_left hneg, fmul_infinity_right ha,
      fdiv_infinity_right ha, fdiv_infinity_left ha, flt_infinity_right ha, flt_infinity_left ha]
    cases neg <;> cases signBit a <;> simp
  · obtain ⟨neg, rfl⟩ := mem_zeros_iff.1 hz
    simp only [posInf_literal, negInf_literal, canonNaN_literal, fdiv_zero ha, valueOf_eq_zero_iff,
      signBit_pack (show 0 < 0x80000000 by decide)]
    cases neg <;> cases signBit a <;> simp
  · obtain ⟨s, rfl⟩ := mem_infinities_iff.1 hc
    obtain ⟨t, rfl⟩ := mem_infinities_iff.1 hd
    obtain ⟨hadd, hmul, hdiv, hlt⟩ := operations_of_infinities s t
    have hsub := (operations_of_infinities s (!t)).1
    simp only [posInf_literal, negInf_literal, canonNaN_literal, infinity_inj, fsub, fneg_infinity,
      hadd, hsub, hmul, hdiv, hlt]
    cases s <;> cases t <;> simp

/-! ### The trigonometric functions (R10) -/

theorem finWithin_zero {bound : Word} (h : 0 ≤ valueOf bound) (neg : Bool) :
    finWithin bound (pack neg 0) := by
  refine ⟨isFin_pack (by decide), ?_⟩
  rw [valueOf_eq_zero_iff.2 (isZero_pack (by decide)), abs_zero]
  exact h

theorem finWithin_withSignOf {bound c : Word} (h : finWithin bound c) (y : Word) :
    finWithin bound (withSignOf y c) := by
  rw [withSignOf]
  split_ifs
  · exact ⟨by rw [isFin_fneg, h.1], by rw [valueOf_fneg, abs_neg]; exact h.2⟩
  · exact h

theorem isFin_of_isZero {w : Word} (h0 : isZero w = true) : isFin w = true := by
  simp_all [isZero, isFin]

theorem not_isZero_of_isInf {w : Word} (h : isInf w = true) : isZero w = false := by
  simp_all [isZero, isInf]

theorem sin32_of_isFin {x : Word} (hx : isFin x = true) :
    sin32 x = if isZero x = true then x else Config.trig.sin x := by
  rw [sin32, not_isNaN_of_isFin hx, not_isInf_of_isFin hx, Bool.or_false, if_neg Bool.false_ne_true]

theorem cos32_of_isFin {x : Word} (hx : isFin x = true) :
    cos32 x = if isZero x = true then fONE else Config.trig.cos x := by
  rw [cos32, not_isNaN_of_isFin hx, not_isInf_of_isFin hx, Bool.or_false, if_neg Bool.false_ne_true]

section
variable {y x : Word}

theorem atan2F32_of_isZero_left (hy0 : isZero y = true) (hx : isNaN x = false) :
    atan2F32 y x = if signBit x = true then withSignOf y piF32 else y := by
  rw [atan2F32, not_isNaN_of_isZero hy0, hx, Bool.or_false, if_neg Bool.false_ne_true, if_pos hy0]

theorem atan2F32_of_isZero_right (hy : isNaN y = false) (hy0 : isZero y = false) (hx0 : isZero x = true) :
    atan2F32 y x = withSignOf y halfPiF32 := by
  rw [atan2F32, hy, not_isNaN_of_isZero hx0, Bool.or_false, if_neg Bool.false_ne_true, hy0,
    if_neg Bool.false_ne_true, if_pos hx0]

theorem atan2F32_of_not_isZero (hy : isNaN y = false) (hx : isNaN x = false) (hy0 : isZero y = false)
    (hx0 : isZero x = false) : atan2F32 y x = Config.trig.atan2 y x := by
  rw [atan2F32, hy, hx, Bool.or_false, if_neg Bool.false_ne_true, hy0, if_neg Bool.false_ne_true, hx0,
    if_neg Bool.false_ne_true]

end

/-- Off the zeros the arc tangent is the trigonometric unit's, and near the exact angle (R10, last law). -/
theorem atan2Near_atan2F32 {y x : Word} (hy : isNaN y = false) (hx : isNaN x = false)
    (hy0 : isZero y = false) (hx0 : isZero x = false) :
    atan2Near Config.trig.errUlp y x (atan2F32 y x) := by
  rw [atan2F32_of_not_isZero hy hx hy0 hx0]
  exact Config.trig.atan2_near y x

theorem signOf_mul (y : Word) (angle : ℝ) :
    signOf y * angle = if signBit y = true then -angle else angle := by
  rw [signOf]
  split_ifs <;> ring

theorem finWithin_piF32 : finWithin piF32 piF32 ∧ finWithin piF32 halfPiF32 := by
  refine ⟨⟨by decide, ?_⟩, ⟨by decide, ?_⟩⟩ <;> decide +kernel

theorem finWithin_atan2F32 {y x : Word} (hy : isNaN y = false) (hx : isNaN x = false) :
    finWithin piF32 (atan2F32 y x) := by
  cases hy0 : isZero y
  · cases hx0 : isZero x
    · rw [atan2F32_of_not_isZero hy hx hy0 hx0]
      exact Config.trig.atan2_range y x
    · rw [atan2F32_of_isZero_right hy hy0 hx0]
      exact finWithin_withSignOf finWithin_piF32.2 y
  · rw [atan2F32_of_isZero_left hy0 hx]
    split_ifs
    · exact finWithin_withSignOf finWithin_piF32.1 y
    · obtain ⟨neg, rfl⟩ := isZero_pack_iff.1 hy0
      exact finWithin_zero (by decide +kernel) neg

theorem finWithin_sin32 {x : Word} (hx : isFin x = true) : finWithin fONE (sin32 x) := by
  rw [sin32_of_isFin hx]
  split_ifs with h0
  · obtain ⟨neg, rfl⟩ := isZero_pack_iff.1 h0
    exact finWithin_zero (by decide +kernel) neg
  · exact Config.trig.sin_range x

theorem finWithin_cos32 {x : Word} (hx : isFin x = true) : finWithin fONE (cos32 x) := by
  rw [cos32_of_isFin hx]
  split_ifs with h0
  · exact ⟨by decide, by decide +kernel⟩
  · exact Config.trig.cos_range x

theorem sin32_cos32_of_isZero {x : Word} (h0 : isZero x = true) : sin32 x = x ∧ cos32 x = fONE := by
  rw [sin32_of_isFin (isFin_of_isZero h0), cos32_of_isFin (isFin_of_isZero h0), if_pos h0, if_pos h0]
  exact ⟨rfl, rfl⟩

theorem sin32_cos32_near {x : Word} (hx : isFin x = true) (h0 : isZero x = false) :
    ulpsFrom Config.trig.errUlp (Real.sin (valueOf x)) (sin32 x) ∧
      ulpsFrom Config.trig.errUlp (Real.cos (valueOf x)) (cos32 x) := by
  rw [sin32_of_isFin hx, cos32_of_isFin hx, h0, if_neg Bool.false_ne_true, if_neg Bool.false_ne_true]
  exact ⟨Config.trig.sin_near x hx, Config.trig.cos_near x hx⟩

/-- Settles O42: each law is the special case of the function's definition or a law of the
trigonometric unit. -/
theorem trigLaws : Obligations.TrigLaws := by
  unfold Obligations.TrigLaws
  refine ⟨fun x => ⟨fun h => ?_, fun hx => ⟨finWithin_sin32 hx, finWithin_cos32 hx,
      sin32_cos32_of_isZero, sin32_cos32_near hx⟩⟩,
    fun y x h => ?_, fun y x => finWithin_atan2F32, fun x hx => ?_, fun y x hy hy0 hx0 => ?_,
    fun y x hy hx hy0 hx0 => ?_, fun y x hy hx => ?_⟩
  · have h' : (isNaN x || isInf x) = true := by rwa [Bool.or_eq_true]
    exact ⟨by rw [sin32, if_pos h']; rfl, by rw [cos32, if_pos h']; rfl⟩
  · rw [atan2F32, if_pos (by rwa [Bool.or_eq_true])]
    rfl
  · rw [atan2F32_of_isZero_left (y := 0x00000000#32) rfl hx,
      atan2F32_of_isZero_left (y := 0x80000000#32) rfl hx]
    cases signBit x <;> decide
  · rw [atan2F32_of_isZero_right hy hy0 hx0, withSignOf]
    cases signBit y <;> rfl
  · exact (atan2Near_atan2F32 (not_isNaN_of_isFin hy) (not_isNaN_of_isFin hx) hy0 hx0).1 hy hx
  · have hnear := atan2Near_atan2F32 hy hx
    simp only [← signOf_mul]
    refine ⟨?_, ?_, fun hiy hfx hx0 => ?_, ?_, ?_⟩
    · rintro hfy hy0 rfl
      obtain ⟨-, hlimit, -, -⟩ := hnear hy0 rfl
      exact hlimit hfy rfl
    · rintro hfy hy0 rfl
      obtain ⟨-, hlimit, -, -⟩ := hnear hy0 rfl
      exact hlimit hfy rfl
    · obtain ⟨-, -, hlimit, -⟩ := hnear (not_isZero_of_isInf hiy) hx0
      exact hlimit hiy hfx
    · rintro hiy rfl
      obtain ⟨-, -, -, hboth⟩ := hnear (not_isZero_of_isInf hiy) rfl
      exact hboth hiy rfl
    · rintro hiy rfl
      obtain ⟨-, -, -, hboth⟩ := hnear (not_isZero_of_isInf hiy) rfl
      exact hboth hiy rfl

end Sys2Proof.Machine
end

/-! SUPPORT. What a turn can do, said once: the turn a step takes, what the engine's turn makes of the state
(10_state.md R49, R50, R121), what a host move makes of it (20_memory.md section 4), and the part of the
state that only a fault-free completion or a reset writes. -/

section
namespace Sys2Proof.Machine

/-! ### Whose turn a step takes -/

theorem step_of_turns_nil {s : State} (hs : s.turns = []) : step s = engineStep s := by rw [step, hs]

theorem not_engineTurn_of_host {s : State} {mv : HostMove} {ts : List Turn} (h : s.turns = .host mv :: ts) :
    ¬ s.engineTurn := by
  rintro (h' | ⟨_, h'⟩) <;> simp [h] at h'

/-- A step is a turn of the engine or of the host, in the state whose list no longer holds the turn. -/
theorem step_turn {s t : State} (h : step s = .next t) :
    ∃ ts, (s.engineTurn ∧ engineStep { s with turns := ts } = .next t) ∨
      ∃ mv, s.turns = .host mv :: ts ∧ hostStep mv { s with turns := ts } = .next t := by
  rcases step_cases h with ⟨hs, h⟩ | ⟨ts, hs, h⟩ | ⟨mv, ts, hs, h⟩
  · exact ⟨s.turns, .inl ⟨.inl hs, h⟩⟩
  · exact ⟨ts, .inl ⟨.inr ⟨ts, hs⟩, h⟩⟩
  · exact ⟨ts, .inr ⟨mv, hs, h⟩⟩

/-- What the engine does whatever turns follow is what its turn does. -/
theorem engineMoves_of_engineStep {s t : State} (ht : t.turns = s.turns)
    (h : ∀ ts, engineStep { s with turns := ts } = .next { t with turns := ts }) : engineMoves s t := by
  refine ⟨fun hs => ?_, h⟩
  calc step s = engineStep s := step_of_turns_nil hs
    _ = .next { t with turns := s.turns } := h s.turns
    _ = .next t := by rw [← ht]

/-! ### The engine's turn -/

/-- What a turn of the engine makes of `s`: the effect of a command that Check passes and its retirement, a
fault entry, an issue, or nothing (R49, R50, R121, R133). -/
inductive EngineChange (s : State) : State → Prop
  | completes (c : Cmd) (i : Instr) (hcur : s.cur = some c) (hdec : decode c = .ok i)
      (hcheck : check i s = .none) : EngineChange s (effectOf i s).retire
  | faults (c c' : Cmd) (hcur : s.cur = some c) (hcheck : checkCmd c s ≠ .none) :
      EngineChange s (s.faultEntry (checkCmd c s) c').endCommand
  | issues (c : Cmd) (q : List Cmd) (hcur : s.cur = none) (hf : s.faulted = false)
      (hq : s.queue = c :: q) : EngineChange s { s with cur := some c, queue := q }
  | rests (hcur : s.cur = none) (h : s.faulted = true ∨ s.queue = []) : EngineChange s s

theorem checkCmd_of_ok {c : Cmd} {i : Instr} (h : decode c = .ok i) (s : State) :
    checkCmd c s = check i s := by simp [checkCmd, h]

theorem checkCmd_of_illegal {c : Cmd} {why : Illegal} (h : decode c = .illegal why) (s : State) :
    checkCmd c s = causeOf why := by simp [checkCmd, h]

theorem causeOf_ne_none (why : Illegal) : causeOf why ≠ .none := by cases why <;> decide

theorem engineChange_of_engineStep {s t : State} (h : engineStep s = .next t) : EngineChange s t := by
  rcases engineStep_cases h with
    ⟨c, i, hcur, hdec, hexec⟩ | ⟨c, why, hcur, hdec, rfl⟩ | ⟨c, q, hcur, hf, hq, rfl⟩ | ⟨hcur, hrest, rfl⟩
  · rcases exec_cases hexec with ⟨hcheck, rfl⟩ | ⟨hcheck, rfl⟩
    · exact .completes c i hcur hdec hcheck
    · rw [← checkCmd_of_ok hdec] at hcheck ⊢
      exact .faults c _ hcur hcheck
  · have hcause := checkCmd_of_illegal hdec s
    rw [← hcause]
    exact .faults c c hcur (hcause ▸ causeOf_ne_none why)
  · exact .issues c q hcur hf hq
  · exact .rests hcur hrest

/-! ### The host's turn -/

/-- What a host move other than a reset makes of `s` (R27 to R29, R35, R42, R60, R61). -/
inductive HostChange (s : State) : State → Prop
  | read (v : Word) : HostChange s { s with rdata := v }
  | readCollides (hactive : s.active = true) : HostChange s { s with rdata := 0#32, hcollBit := true }
  | ctrl (clr abt : Bool) : HostChange s
      { s with
        faulted := s.faulted && !clr
        cause := if s.faulted = true ∧ clr = true then .none else s.cause
        queue := if abt = true then [] else s.queue }
  | status (v : Word) : HostChange s (s.writeStatus v)
  | irqEn (e : BitVec 3) : HostChange s { s with irqEn := e }
  | staging (w0 w1 w2 : Word) : HostChange s { s with cmd0 := w0, cmd1 := w1, cmd2 := w2 }
  | push (v : Word) : HostChange s (s.push v)
  | store (i : Nat) (v : Word) (hactive : s.active = false) (hi : i < s.dmemWords) :
      HostChange s (s.setMem (setWord s.mem i v))
  | storeCollides (hactive : s.active = true) : HostChange s { s with hcollBit := true }
  | ignored : HostChange s s

/-- A reset move: soft reset, or the reset input with the cells it brings (R134, R135). -/
inductive ResetChange (s : State) : State → Prop
  | soft : ResetChange s s.softReset
  | input (dmem : List Host.Cell) : ResetChange s (s.resetInput dmem)

theorem hostChange_readAt (s : State) (off : Nat) : HostChange s (s.readAt off) := by
  unfold State.readAt State.windowRead
  split
  · exact .read _
  · split
    · next hactive => exact .readCollides hactive
    · exact .read _

theorem hostChange_windowWrite (s : State) (i : Nat) (v : Word) : HostChange s (s.windowWrite i v) := by
  unfold State.windowWrite
  split
  · next hactive => exact .storeCollides hactive
  · next hactive =>
    split
    · next hi => exact .store i v (by simpa using hactive) hi
    · exact .ignored

theorem writeCtrl_of_srst {v : Word} (h : v.getLsbD 0 = true) (s : State) : s.writeCtrl v = s.softReset := by
  simp [State.writeCtrl, h]

theorem clearFault_eq (s : State) :
    s.clearFault = { s with faulted := false, cause := if s.faulted = true then .none else s.cause } := by
  cases h : s.faulted
  · cases s
    simp_all [State.clearFault]
  · simp [State.clearFault, h]

/-- A CTRL write without SRST (R27, R122, R124). -/
theorem writeCtrl_of_not_srst {v : Word} (h : v.getLsbD 0 = false) (s : State) : s.writeCtrl v =
    { s with
      faulted := s.faulted && !v.getLsbD 1
      cause := if s.faulted = true ∧ v.getLsbD 1 = true then .none else s.cause
      queue := if v.getLsbD 2 = true then [] else s.queue } := by
  rw [State.writeCtrl, h, clearFault_eq]
  cases v.getLsbD 1 <;> cases v.getLsbD 2 <;> simp [State.abort]

theorem hostChange_writeCtrl {v : Word} (h : v.getLsbD 0 = false) (s : State) :
    HostChange s (s.writeCtrl v) :=
  writeCtrl_of_not_srst h s ▸ .ctrl (v.getLsbD 1) (v.getLsbD 2)

theorem hostChange_regWrite {off : Nat} {v : Word} (h : ¬ (off = 0x008 ∧ v.getLsbD 0 = true)) (s : State) :
    HostChange s (s.regWrite off v) := by
  unfold State.regWrite
  split
  · exact hostChange_writeCtrl (by simpa using h) s
  · exact .status v
  · exact .irqEn _
  · exact .staging v s.cmd1 s.cmd2
  · exact .staging s.cmd0 v s.cmd2
  · exact .staging s.cmd0 s.cmd1 v
  · exact .push v
  · exact .ignored

theorem hostChange_writeAt {off : Nat} {v : Word} (h : ¬ (off = 0x008 ∧ v.getLsbD 0 = true)) (s : State) :
    HostChange s (s.writeAt off v) := by
  unfold State.writeAt
  split
  · exact hostChange_regWrite h s
  · exact hostChange_windowWrite s _ v

/-- A host move is a reset or changes the state as `HostChange` lists. -/
theorem hostChange_of_hostStep {s t : State} {mv : HostMove} (h : hostStep mv s = .next t) :
    (isReset s mv ∧ ResetChange s t) ∨ (¬ isReset s mv ∧ HostChange s t) := by
  rcases hostStep_cases h with ⟨addr, rfl, rfl⟩ | ⟨addr, v, rfl, rfl⟩ | ⟨dmem, rfl, rfl⟩
  · exact .inr ⟨id, hostChange_readAt s _⟩
  · by_cases hr : isReset s (.write addr 4 v)
    · obtain ⟨rfl, hv⟩ := hr
      refine .inl ⟨⟨rfl, hv⟩, ?_⟩
      have hsoft : s.writeAt (s.hw.base + 0x008 - s.hw.base) v = s.softReset := by
        rw [Nat.add_sub_cancel_left]
        exact writeCtrl_of_srst hv s
      exact hsoft ▸ .soft
    · refine .inr ⟨hr, hostChange_writeAt (fun ⟨hoff, hv⟩ => hr ⟨?_, hv⟩) s⟩
      omega
  · exact .inl ⟨trivial, .input dmem⟩

/-- What a step does, by whose turn it is. -/
theorem step_change {s t : State} (h : step s = .next t) :
    (s.engineTurn ∧ ∃ ts, EngineChange { s with turns := ts } t) ∨
    ∃ mv ts, s.turns = .host mv :: ts ∧
      ((isReset s mv ∧ ResetChange { s with turns := ts } t) ∨
        (¬ isReset s mv ∧ HostChange { s with turns := ts } t)) := by
  obtain ⟨ts, ⟨he, h⟩ | ⟨mv, hmv, h⟩⟩ := step_turn h
  · exact .inl ⟨he, ts, engineChange_of_engineStep h⟩
  · exact .inr ⟨mv, ts, hmv, hostChange_of_hostStep h⟩

/-! ### What only a fault-free completion or a reset writes -/

/-- HWCFG, CMDCNT, the parameter registers, CFG.LOG2N, INIT_DONE, the pointers and the scratch are the same. -/
structure KeepsCommandState (s t : State) : Prop where
  hw : t.hw = s.hw
  initDone : t.initDone = s.initDone
  log2n : t.log2n = s.log2n
  cmdcnt : t.cmdcnt = s.cmdcnt
  ratio : t.ratio = s.ratio
  invRatio : t.invRatio = s.invRatio
  beta : t.beta = s.beta
  mix : t.mix = s.mix
  omMix : t.omMix = s.omMix
  p : t.p = s.p
  scratch : t.scratch = s.scratch

theorem keepsCommandState_faultEntry (s : State) (cause : Cause) (c : Cmd) :
    KeepsCommandState s (s.faultEntry cause c).endCommand := by
  rcases faultEntry_eq s cause c with ⟨_, e⟩ | ⟨_, e⟩ <;> rw [e] <;> constructor <;> rfl

theorem keepsCommandState_push (s : State) (v : Word) : KeepsCommandState s (s.push v) := by
  rcases push_cases s v with ⟨_, e⟩ | ⟨_, _, e⟩ | ⟨_, _, e⟩ <;> rw [e] <;> constructor <;> rfl

theorem HostChange.keepsCommandState {s t : State} (h : HostChange s t) : KeepsCommandState s t := by
  cases h with
  | push v => exact keepsCommandState_push s v
  | _ => constructor <;> rfl

/-- Beside a fault-free completion, no turn of the engine writes this part of the state. -/
theorem EngineChange.completes_or_keeps {s t : State} (h : EngineChange s t) :
    (∃ c i, s.cur = some c ∧ decode c = .ok i ∧ check i s = .none ∧ t = (effectOf i s).retire) ∨
    ((∀ c, s.cur = some c → checkCmd c s ≠ .none) ∧ KeepsCommandState s t) := by
  cases h with
  | completes c i hcur hdec hcheck => exact .inl ⟨c, i, hcur, hdec, hcheck, rfl⟩
  | faults c c' hcur hcheck =>
    exact .inr ⟨by simp [hcur, hcheck], keepsCommandState_faultEntry s _ c'⟩
  | issues c q hcur => exact .inr ⟨by simp [hcur], by constructor <;> rfl⟩
  | rests hcur => exact .inr ⟨by simp [hcur], by constructor <;> rfl⟩

/-! ### Resets (R53) -/

theorem ptr_powerOn (hw : HwCfg) (m : Mem) (ts : List Turn) (r : Fin 8) :
    (State.powerOn hw m ts).p.get r = 0#16 := by
  simp [State.powerOn, Vector.get_eq_getElem]

theorem atReset_powerOn (hw : HwCfg) (m : Mem) (ts : List Turn) : (State.powerOn hw m ts).atReset :=
  ⟨rfl, rfl, rfl, rfl, rfl, rfl, rfl, rfl, rfl, rfl, rfl, rfl, rfl, rfl, rfl, rfl, rfl, rfl, rfl,
    ptr_powerOn hw m ts⟩

theorem atReset_resetRegisters (s : State) (m : Mem) : (s.resetRegisters m).atReset :=
  atReset_powerOn s.hw m s.turns

theorem ResetChange.eq_resetRegisters {s t : State} (h : ResetChange s t) : ∃ m, t = s.resetRegisters m := by
  cases h with
  | soft => exact ⟨_, rfl⟩
  | input dmem => exact ⟨_, rfl⟩

@[simp] theorem resetRegisters_doneBit (s : State) (m : Mem) : (s.resetRegisters m).doneBit = false := rfl

/-- With every enable and every source clear the interrupt output is low (R125). -/
theorem irq_of_atReset {s : State} (h : s.atReset) : s.irq = false := by
  obtain ⟨-, hf, hd, hh, -⟩ := h
  simp [State.irq, hf, hd, hh]

end Sys2Proof.Machine
end

/-! SUPPORT. The words a command writes: its effect on DMEM is a sequence of word writes inside its written
extents (70_reset_and_hazards.md R135), so it stays inside DMEM when Check passes; and the words a soft
reset frees. -/

section
namespace Sys2Proof.Machine

/-! ### Sequences of word writes -/

/-- Word `x` lies in one of the extents. -/
def inExtents (es : List (Nat × Nat)) (x : Nat) : Prop := ∃ e ∈ es, e.1 ≤ x ∧ x < e.1 + e.2

theorem inExtents_cons (a n : Nat) (es : List (Nat × Nat)) (x : Nat) :
    inExtents ((a, n) :: es) x ↔ (a ≤ x ∧ x < a + n) ∨ inExtents es x := by simp [inExtents]

/-- `m'` is `m` after some writes of words that satisfy `w`. -/
inductive WritesIn (w : Nat → Prop) (m : Mem) : Mem → Prop
  | none : WritesIn w m m
  | word {m' : Mem} (h : WritesIn w m m') (a : Nat) (v : Word) (ha : w a) : WritesIn w m (setWord m' a v)

section
variable {w : Nat → Prop} {m m' : Mem}

theorem WritesIn.loop {n : Nat} {body : Nat → Mem → Mem} (h : WritesIn w m m')
    (hbody : ∀ i m', i < n → WritesIn w m m' → WritesIn w m (body i m')) :
    WritesIn w m (Machine.loop n body m') :=
  loop_keeps hbody h

theorem WritesIn.zWrite {n z k : Nat} (h : WritesIn w m m') (v : Cplx) (hre : w (z + k))
    (him : w (z + n + k)) : WritesIn w m (Machine.zWrite n m' z k v) :=
  (h.word _ _ hre).word _ _ him

theorem WritesIn.keepsOutside (h : WritesIn w m m') : keepsOutside m m' w := by
  induction h with
  | none => exact fun _ _ => rfl
  | word _ a v ha ih =>
    intro x hx
    have hne : x / 4 ≠ a := by
      rintro rfl
      exact hx ha
    rw [memByte_setWord, if_neg hne, ih x hx]

theorem WritesIn.within {words : Nat} (h : WritesIn w m m') (hw : ∀ a, w a → a < words)
    (hm : m.within words = true) : m'.within words = true := by
  induction h with
  | none => exact hm
  | word _ a v ha ih => exact within_setWord v (hw a ha) ih

end

/-! ### The words a command writes -/

theorem slotAt_bounds (b lg h : Nat) (i : Int) : b ≤ slotAt b lg h i ∧ slotAt b lg h i < b + 2 ^ lg := by
  have hpos : (0 : Int) < (2 ^ lg : Nat) := by positivity
  have h0 := Int.emod_nonneg ((h : Int) + i) hpos.ne'
  have h1 := Int.emod_lt_of_pos ((h : Int) + i) hpos
  unfold slotAt
  omega

section
variable {n i : Nat} (hi : i < n) (a : Nat) (es : List (Nat × Nat))
include hi

theorem inExtents_add : inExtents ((a, n) :: es) (a + i) :=
  (inExtents_cons a n es _).2 (.inl ⟨by omega, by omega⟩)

theorem inExtents_re : inExtents ((a, 2 * n) :: es) (a + i) :=
  (inExtents_cons a _ es _).2 (.inl ⟨by omega, by omega⟩)

theorem inExtents_im : inExtents ((a, 2 * n) :: es) (a + n + i) :=
  (inExtents_cons a _ es _).2 (.inl ⟨by omega, by omega⟩)

end

theorem inExtents_slot (b lg h : Nat) (i : Int) (es : List (Nat × Nat)) :
    inExtents ((b, 2 ^ lg) :: es) (slotAt b lg h i) :=
  (inExtents_cons b _ es _).2 (.inl (slotAt_bounds b lg h i))

theorem inExtents_tail {es : List (Nat × Nat)} {x : Nat} (h : inExtents es x) (e : Nat × Nat) :
    inExtents (e :: es) x :=
  (inExtents_cons e.1 e.2 es x).2 (.inr h)

/-- Every command's effect on DMEM is a sequence of word writes inside its written extents. -/
theorem writesIn_effectOf (i : Instr) (s : State) :
    WritesIn (inExtents (writtenExtents s.nPoints i)) s.mem (effectOf i s).mem := by
  cases i with
  | nop => exact .none
  | setparam cnt imm =>
    rcases setparamEffect_cases cnt imm s with h | h | h | h <;> simp [effectOf, h, WritesIn.none]
  | setp pr cnt => exact .none
  | init cnt => exact .none
  | fill a cnt imm => exact .loop .none fun _ _ hi h => h.word _ _ (inExtents_add hi a _)
  | copy a b cnt => exact .loop .none fun _ _ hi h => h.word _ _ (inExtents_add hi b _)
  | fftFwd a b => exact .loop .none fun _ _ hi h => h.zWrite _ (inExtents_re hi b _) (inExtents_im hi b _)
  | fftInv a b => exact .loop .none fun _ _ hi h => h.word _ _ (inExtents_add hi b _)
  | fftshift a =>
    refine .loop .none fun i _ hi h => (h.word _ _ ?_).word _ _ ?_ <;>
      simp only [writtenExtents, inExtents_cons] <;> omega
  | mag a b => exact .loop .none fun _ _ hi h => h.word _ _ (inExtents_add hi b _)
  | phase a b => exact .loop .none fun _ _ hi h => h.word _ _ (inExtents_add hi b _)
  | polar a b c => exact .loop .none fun _ _ hi h => h.zWrite _ (inExtents_re hi c _) (inExtents_im hi c _)
  | princarg a b cnt => exact .loop .none fun _ _ hi h => h.word _ _ (inExtents_add hi b _)
  | phasediff a b c cnt => exact .loop .none fun _ _ hi h => h.word _ _ (inExtents_add hi c _)
  | pvUnwrap a b c cnt =>
    exact .loop .none fun _ _ hi h =>
      (h.word _ _ (inExtents_add hi b _)).word _ _ (inExtents_tail (inExtents_add hi c _) _)
  | vmul a b c cnt => exact .loop .none fun _ _ hi h => h.word _ _ (inExtents_add hi c _)
  | zpad a b cnt => exact .loop .none fun _ _ hi h => h.word _ _ (inExtents_add hi b _)
  | histPush pr lg cnt a b => exact .loop .none fun _ _ _ h => h.word _ _ (inExtents_slot b lg _ _ _)
  | histExtract pr lg cnt b c => exact .loop .none fun _ _ hi h => h.word _ _ (inExtents_add hi c _)
  | olaAdd pr lg cnt a b d => exact .loop .none fun _ _ _ h => h.word _ _ (inExtents_slot b lg _ _ _)
  | olaDrain pr lg cnt b c =>
    exact .loop .none fun _ _ hi h =>
      (h.word _ _ (inExtents_slot b lg _ _ _)).word _ _ (inExtents_tail (inExtents_add hi c _) _)
  | olaDrainMix pr lg cnt a b c =>
    exact .loop .none fun _ _ hi h =>
      (h.word _ _ (inExtents_slot b lg _ _ _)).word _ _ (inExtents_tail (inExtents_add hi c _) _)
  | splitCarry a b c cnt =>
    exact .loop .none fun _ _ hi h =>
      (h.word _ _ (inExtents_tail (inExtents_add hi c _) _)).word _ _ (inExtents_add hi b _)
  | cmul a b c => exact .loop .none fun _ _ hi h => h.zWrite _ (inExtents_re hi c _) (inExtents_im hi c _)
  | cmatApply a b c =>
    refine .loop .none fun i _ hi h => (h.zWrite _ ?_ ?_).zWrite _ ?_ ?_ <;>
      simp only [writtenExtents, inExtents_cons] <;> omega
  | cmatInv a b =>
    refine .loop .none fun i _ hi h =>
      (((h.zWrite _ ?_ ?_).zWrite _ ?_ ?_).zWrite _ ?_ ?_).zWrite _ ?_ ?_ <;>
      simp only [writtenExtents, inExtents_cons] <;> omega

theorem writtenExtents_subset (n : Nat) (i : Instr) : writtenExtents n i ⊆ extents n i := by
  cases i <;> simp [writtenExtents, extents]

/-- When Check passes, the words a command writes are words of DMEM (R62, R120). -/
theorem lt_dmemWords_of_check {i : Instr} {s : State} (hcheck : check i s = .none) {x : Nat}
    (hx : inExtents (writtenExtents s.nPoints i) x) : x < s.dmemWords := by
  obtain ⟨-, -, hfit⟩ := (check_eq_none_iff i s).1 hcheck
  obtain ⟨e, he, hlo, hhi⟩ := hx
  have := hfit e (writtenExtents_subset _ i he)
  omega

theorem within_effectOf {i : Instr} {s : State} (hcheck : check i s = .none)
    (hm : s.mem.within s.dmemWords = true) : (effectOf i s).mem.within s.dmemWords = true :=
  (writesIn_effectOf i s).within (fun _ => lt_dmemWords_of_check hcheck) hm

/-! ### The words a soft reset frees -/

theorem writesIn_freeExtents {w : Nat → Prop} {m m' : Mem} (n : Nat) {es : List (Nat × Nat)}
    (hes : ∀ x, inExtents es x → w x) (h : WritesIn w m m') : WritesIn w m (freeExtents n es m') := by
  induction es generalizing m' with
  | nil => exact h
  | cons e es ih =>
    refine ih (fun x hx => hes x (inExtents_tail hx e)) (h.loop fun i _ hi h => h.word _ _ (hes _ ?_))
    exact inExtents_add hi e.1 es

theorem mem_abandonedExtents_iff (s : State) (e : Nat × Nat) : e ∈ s.abandonedExtents ↔
    ∃ c i, s.cur = some c ∧ decode c = .ok i ∧ check i s = .none ∧ e ∈ writtenExtents s.nPoints i := by
  unfold State.abandonedExtents
  cases hcur : s.cur with
  | none => simp
  | some c =>
    cases hdec : decode c with
    | illegal why => simp [hdec]
    | ok i => by_cases hcheck : check i s = .none <;> simp [hdec, hcheck]

theorem inExtents_abandonedExtents_iff (s : State) (x : Nat) :
    inExtents s.abandonedExtents x ↔ s.abandoned x := by
  simp only [inExtents, mem_abandonedExtents_iff, State.abandoned]
  constructor
  · rintro ⟨e, ⟨c, i, hcur, hdec, hcheck, he⟩, hx⟩
    exact ⟨c, i, hcur, hdec, hcheck, e, he, hx⟩
  · rintro ⟨c, i, hcur, hdec, hcheck, e, he, hx⟩
    exact ⟨e, ⟨c, i, hcur, hdec, hcheck, he⟩, hx⟩

theorem lt_dmemWords_of_abandoned {s : State} {x : Nat} (h : s.abandoned x) : x < s.dmemWords := by
  obtain ⟨c, i, -, -, hcheck, hx⟩ := h
  exact lt_dmemWords_of_check hcheck hx

/-- A soft reset writes only abandoned words of DMEM (R135). -/
theorem writesIn_softReset (s : State) : WritesIn s.abandoned s.mem s.softReset.mem :=
  writesIn_freeExtents s.freeCtr (fun x => (inExtents_abandonedExtents_iff s x).1) .none

end Sys2Proof.Machine
end

/-! SUPPORT. The machine's invariant, part by part: what each part depends on, and that the command effects,
the fault entry, the host moves and the resets keep it. -/

section
namespace Sys2Proof.Machine

theorem ok_iff (s : State) : s.ok = true ↔ s.hw.legal = true ∧ s.memOk = true ∧ s.queueOk = true ∧
    s.paramsOk = true ∧ s.sizeOk = true ∧ s.scratchOk = true := by
  simp [State.ok, and_assoc]

theorem legal_iff (h : HwCfg) : h.legal = true ↔ 2 ≤ h.log2nMax ∧ h.log2nMax ≤ 13 ∧
    h.log2nMax + 3 ≤ h.dmemLog2 ∧ h.dmemLog2 ≤ 16 ∧ 1 ≤ h.cqDepth ∧ h.cqDepth ≤ 255 ∧
    h.base % 0x80000 = 0 := by
  simp only [HwCfg.legal, Bool.and_eq_true, decide_eq_true_eq, and_assoc]

theorem memOk_iff (s : State) : s.memOk = true ↔ s.mem.wf = true ∧ s.mem.within s.dmemWords = true := by
  simp [State.memOk]

theorem queueOk_iff (s : State) : s.queueOk = true ↔ s.queue.length ≤ s.hw.cqDepth ∧
    (s.faulted = true → s.queue = []) ∧ (s.faulted = true ↔ s.cause ≠ .none) := by
  unfold State.queueOk
  cases s.faulted <;> simp [and_assoc]

/-! ### What each part depends on -/

/-- Whoever keeps the state that commands write keeps what the invariant says of it. -/
theorem KeepsCommandState.ok {s t : State} (h : KeepsCommandState s t) (hs : s.ok = true)
    (hmem : t.memOk = true) (hqueue : t.queueOk = true) : t.ok = true := by
  obtain ⟨hlegal, -, -, hparams, hsize, hscratch⟩ := (ok_iff s).1 hs
  refine (ok_iff t).2 ⟨h.hw ▸ hlegal, hmem, hqueue, ?_, ?_, ?_⟩
  · simpa only [State.paramsOk, h.ratio, h.invRatio, h.mix, h.omMix] using hparams
  · simpa only [State.sizeOk, h.initDone, h.log2n, h.hw] using hsize
  · simpa only [State.scratchOk, h.scratch, h.hw] using hscratch

theorem memOk_congr {s t : State} (hmem : t.mem = s.mem) (hhw : t.hw = s.hw) : t.memOk = s.memOk := by
  simp only [State.memOk, State.dmemWords, hmem, hhw]

/-! ### The parameter registers (R36, R39, R114) -/

theorem clampRatio_bounds (v : Word) : isNaN (clampRatio v) = false ∧ flt (clampRatio v) fHALF = false ∧
    flt fTWO (clampRatio v) = false := by
  unfold clampRatio
  split
  · decide +kernel
  · split
    · decide +kernel
    · split
      · decide +kernel
      · simp_all

theorem clampMix_bounds (v : Word) : isNaN (clampMix v) = false ∧ flt (clampMix v) fZERO = false ∧
    flt fONE (clampMix v) = false := by
  unfold clampMix
  split
  · decide +kernel
  · split
    · decide +kernel
    · split
      · decide +kernel
      · simp_all

theorem paramsOk_setRatio (v : Word) {s : State} (h : s.paramsOk = true) : (setRatio v s).paramsOk = true := by
  obtain ⟨hnan, hlo, hhi⟩ := clampRatio_bounds v
  simp_all [State.paramsOk]

theorem paramsOk_setMix (v : Word) {s : State} (h : s.paramsOk = true) : (setMix v s).paramsOk = true := by
  obtain ⟨hnan, hlo, hhi⟩ := clampMix_bounds v
  simp_all [State.paramsOk]

theorem paramsOk_effectOf (i : Instr) {s : State} (h : s.paramsOk = true) : (effectOf i s).paramsOk = true := by
  cases i with
  | setparam cnt imm =>
    rcases setparamEffect_cases cnt imm s with e | e | e | e <;> rw [effectOf, e]
    · exact paramsOk_setRatio imm h
    · exact h
    · exact paramsOk_setMix imm h
    · exact h
  | _ => exact h

/-! ### CFG.LOG2N (R12, R33, R88) -/

theorem sizeOk_effectOf {i : Instr} {s : State} (hlegal : s.hw.legal = true) (hcheck : check i s = .none)
    (h : s.sizeOk = true) : (effectOf i s).sizeOk = true := by
  cases i with
  | init cnt =>
    obtain ⟨-, hfield, -⟩ := (check_eq_none_iff _ s).1 hcheck
    have hcnt : 1 ≤ cnt ∧ cnt ≤ s.hw.log2nMax := by
      simpa [badField, Nat.one_le_iff_ne_zero] using hfield
    obtain ⟨-, hmax, -⟩ := (legal_iff s.hw).1 hlegal
    have hmod : cnt % 32 = cnt := Nat.mod_eq_of_lt (by omega)
    simpa [State.sizeOk, effectOf, hmod] using hcnt
  | setparam cnt imm =>
    rcases setparamEffect_cases cnt imm s with e | e | e | e <;> rw [effectOf, e] <;> exact h
  | _ => exact h

/-! ### The transform scratch (R46) -/

/-- Both arrays hold `n` words. -/
def Scratch.Sized (n : Nat) (x : Scratch) : Prop := x.sr.length = n ∧ x.si.length = n

theorem scratchOk_iff (s : State) : s.scratchOk = true ↔ s.scratch.Sized s.hw.nMax := by
  simp [State.scratchOk, Scratch.Sized]

section
variable {n : Nat} {x : Scratch} (h : x.Sized n)
include h

theorem sized_put (i : Nat) (v : Cplx) : (x.put i v).Sized n := by
  simpa [Scratch.put, Scratch.Sized] using h

theorem sized_butterflies (log2nMax l : Nat) (cj : Bool) : (butterflies log2nMax l cj x).Sized n :=
  loop_keeps (fun _ _ _ h => loop_keeps (fun _ _ _ h => loop_keeps (fun _ _ _ h =>
    sized_put (sized_put h _ _) _ _) h) h) h

theorem sized_fwdScratch (log2nMax l a : Nat) (m : Mem) : (fwdScratch log2nMax l a m x).Sized n :=
  sized_butterflies (loop_keeps (fun _ _ _ h => sized_put h _ _) h) _ _ _

theorem sized_invScratch (log2nMax l a : Nat) (m : Mem) : (invScratch log2nMax l a m x).Sized n :=
  sized_butterflies (loop_keeps (fun _ _ _ h => sized_put h _ _) h) _ _ _

end

theorem sized_freeScratchOf (n nMax : Nat) : (freeScratchOf n nMax).Sized nMax := by
  simp [freeScratchOf, Scratch.Sized]

theorem scratchOk_effectOf (i : Instr) {s : State} (h : s.scratchOk = true) :
    (effectOf i s).scratchOk = true := by
  cases i with
  | fftFwd a b => exact (scratchOk_iff _).2 (sized_fwdScratch ((scratchOk_iff s).1 h) _ _ _ _)
  | fftInv a b => exact (scratchOk_iff _).2 (sized_invScratch ((scratchOk_iff s).1 h) _ _ _ _)
  | setparam cnt imm =>
    rcases setparamEffect_cases cnt imm s with e | e | e | e <;> rw [effectOf, e] <;> exact h
  | _ => exact h

/-! ### The engine's turn keeps the invariant -/

theorem ok_retire {s : State} (h : s.ok = true) : s.retire.ok = true := h

theorem ok_effectOf {i : Instr} {s : State} (hcheck : check i s = .none) (h : s.ok = true) :
    (effectOf i s).ok = true := by
  obtain ⟨hlegal, hmem, hqueue, hparams, hsize, hscratch⟩ := (ok_iff s).1 h
  obtain ⟨hwf, hwithin⟩ := (memOk_iff s).1 hmem
  refine (ok_iff _).2 ⟨by simpa using hlegal, (memOk_iff _).2 ⟨wf_effectOf i s hwf, ?_⟩, ?_,
    paramsOk_effectOf i hparams, sizeOk_effectOf hlegal hcheck hsize, scratchOk_effectOf i hscratch⟩
  · simpa [State.dmemWords] using within_effectOf hcheck hwithin
  · simpa [State.queueOk] using hqueue

theorem queueOk_faultEntry {s : State} {cause : Cause} (hcause : cause ≠ .none) (c : Cmd)
    (h : s.queueOk = true) : (s.faultEntry cause c).queueOk = true := by
  rw [queueOk_iff] at h ⊢
  rcases faultEntry_eq s cause c with ⟨_, e⟩ | ⟨_, e⟩ <;> simp_all

theorem EngineChange.ok {s t : State} (h : EngineChange s t) (hs : s.ok = true) : t.ok = true := by
  obtain ⟨-, hmem, hqueue, -⟩ := (ok_iff s).1 hs
  cases h with
  | completes c i hcur hdec hcheck => exact ok_retire (ok_effectOf hcheck hs)
  | faults c c' hcur hcheck =>
    have hkeeps := keepsCommandState_faultEntry s (checkCmd c s) c'
    exact hkeeps.ok hs ((memOk_congr (by simp) hkeeps.hw).trans hmem) (queueOk_faultEntry hcheck c' hqueue)
  | issues c q hcur hf hq =>
    obtain ⟨hlen, -, hcause⟩ := (queueOk_iff s).1 hqueue
    rw [hq] at hlen
    have hqueue' : State.queueOk { s with cur := some c, queue := q } = true :=
      (queueOk_iff _).2 ⟨Nat.le_of_succ_le hlen, by simp [hf], hcause⟩
    exact KeepsCommandState.ok (by constructor <;> rfl) hs hmem hqueue'
  | rests => exact hs

/-! ### The host's turn keeps the invariant -/

theorem queueOk_push (v : Word) {s : State} (h : s.queueOk = true) : (s.push v).queueOk = true := by
  obtain ⟨hlen, hempty, hcause⟩ := (queueOk_iff s).1 h
  rw [queueOk_iff]
  rcases push_cases s v with ⟨_, e⟩ | ⟨_, _, e⟩ | ⟨hf, hne, e⟩ <;> rw [e]
  · exact ⟨hlen, hempty, hcause⟩
  · simp
  · refine ⟨?_, by simp [hf], hcause⟩
    simpa using Nat.lt_of_le_of_ne hlen hne

theorem HostChange.queueOk {s t : State} (h : HostChange s t) (hs : s.queueOk = true) : t.queueOk = true := by
  cases h with
  | push v => exact queueOk_push v hs
  | ctrl clr abt =>
    obtain ⟨hlen, hempty, hcause⟩ := (queueOk_iff s).1 hs
    refine (queueOk_iff _).2 ⟨?_, fun hf => ?_, ?_⟩
    · cases abt <;> simp [hlen]
    · simp [hempty (Bool.and_eq_true_iff.1 hf).1]
    · cases clr
      · simpa using hcause
      · cases hf : s.faulted <;> simp_all
  | _ => exact hs

theorem HostChange.memOk {s t : State} (h : HostChange s t) (hs : s.memOk = true) : t.memOk = true := by
  cases h with
  | push v =>
    rcases push_cases s v with ⟨_, e⟩ | ⟨_, _, e⟩ | ⟨_, _, e⟩ <;> rw [e] <;> exact hs
  | store i v _ hi =>
    obtain ⟨hwf, hwithin⟩ := (memOk_iff s).1 hs
    exact (memOk_iff _).2 ⟨wf_setWord i v hwf, within_setWord v hi hwithin⟩
  | _ => exact hs

theorem HostChange.ok {s t : State} (h : HostChange s t) (hs : s.ok = true) : t.ok = true := by
  obtain ⟨-, hmem, hqueue, -⟩ := (ok_iff s).1 hs
  exact h.keepsCommandState.ok hs (h.memOk hmem) (h.queueOk hqueue)

/-! ### Resets establish the invariant -/

/-- The reset values of the registers meet what the invariant says of them (R53). -/
theorem ok_of_atReset {s : State} (h : s.atReset) (hlegal : s.hw.legal = true) (hmem : s.memOk = true)
    (hscratch : s.scratchOk = true) : s.ok = true := by
  obtain ⟨hinit, hfaulted, -, -, -, hcause, -, hqueue, -, hlog2n, -, -, -, -, hratio, hinv, -, hmix, hom, -⟩ := h
  refine (ok_iff s).2 ⟨hlegal, hmem, ?_, ?_, ?_, hscratch⟩
  · simp [queueOk_iff, hfaulted, hcause, hqueue]
  · rw [State.paramsOk, hratio, hinv, hmix, hom]
    decide +kernel
  · simp [State.sizeOk, hinit, hlog2n]

theorem memOk_resetInput (s : State) (dmem : List Host.Cell) : (s.resetInput dmem).memOk = true :=
  (memOk_iff _).2 (wf_memOfCells s.dmemWords dmem)

theorem memOk_softReset {s : State} (h : s.memOk = true) : s.softReset.memOk = true := by
  obtain ⟨hwf, hwithin⟩ := (memOk_iff s).1 h
  exact (memOk_iff _).2 ⟨wf_freeExtents s.freeCtr s.abandonedExtents hwf,
    (writesIn_softReset s).within (fun _ => lt_dmemWords_of_abandoned) hwithin⟩

theorem ResetChange.ok {s t : State} (h : ResetChange s t) (hs : s.ok = true) : t.ok = true := by
  obtain ⟨hlegal, hmem, -⟩ := (ok_iff s).1 hs
  have hscratch : ∀ m, (s.resetRegisters m).scratchOk = true := fun m =>
    (scratchOk_iff _).2 (sized_freeScratchOf s.freeCtr s.hw.nMax)
  cases h with
  | soft => exact ok_of_atReset (atReset_resetRegisters s _) hlegal (memOk_softReset hmem) (hscratch _)
  | input dmem => exact ok_of_atReset (atReset_resetRegisters s _) hlegal (memOk_resetInput s dmem) (hscratch _)

/-! ### The obligations about the invariant -/

/-- Settles O58: a step is a turn of the engine, a reset or another host move, and each keeps every part of
the invariant. -/
theorem invariantKept : Obligations.InvariantKept := by
  unfold Obligations.InvariantKept
  intro s t hs hstep
  rcases step_change hstep with ⟨-, ts, h⟩ | ⟨mv, ts, -, ⟨-, h⟩ | ⟨-, h⟩⟩
  · exact h.ok hs
  · exact h.ok hs
  · exact h.ok hs

/-- Settles O59: the reset values meet the invariant, and nothing is listed in DMEM. -/
theorem resetMeetsInvariant : Obligations.ResetMeetsInvariant := by
  unfold Obligations.ResetMeetsInvariant
  have hreset : State.reset.atReset := atReset_powerOn HwCfg.suggested [] []
  have hscratch : State.reset.scratchOk = true := by
    simp [scratchOk_iff, Scratch.Sized, State.reset, State.powerOn]
  exact ⟨ok_of_atReset hreset (by decide) rfl hscratch, hreset⟩

end Sys2Proof.Machine
end

/-! SUPPORT. The state's step laws: the counters and status bits that only a completion or a reset moves
(10_state.md R31, R43, R50, R52), and what the engine's turn does with no command in hand (R49, R121, R133). -/

section
namespace Sys2Proof.Machine

/-! ### What the engine's turn does to CMDCNT and DONE -/

section
variable {s t : State} (h : EngineChange s t)
include h

theorem EngineChange.of_check {c : Cmd} (hcur : s.cur = some c) (hcheck : checkCmd c s = .none) :
    ∃ i, decode c = .ok i ∧ t = (effectOf i s).retire := by
  rcases h.completes_or_keeps with ⟨c', i, hcur', hdec, -, rfl⟩ | ⟨hfault, -⟩
  · obtain rfl : c = c' := by simpa [hcur] using hcur'
    exact ⟨i, hdec, rfl⟩
  · exact absurd hcheck (hfault c hcur)

theorem EngineChange.of_cause {c : Cmd} (hcur : s.cur = some c) (hcheck : checkCmd c s ≠ .none) :
    ∃ c', t = (s.faultEntry (checkCmd c s) c').endCommand := by
  cases h with
  | completes c₁ i hcur₁ hdec hpass =>
    obtain rfl : c = c₁ := by simpa [hcur] using hcur₁
    exact absurd hpass (checkCmd_of_ok hdec s ▸ hcheck)
  | faults c₁ c' hcur₁ _ =>
    obtain rfl : c = c₁ := by simpa [hcur] using hcur₁
    exact ⟨c', rfl⟩
  | issues c₁ q hcur₁ => simp [hcur] at hcur₁
  | rests hcur₁ => simp [hcur] at hcur₁

theorem EngineChange.keeps_of_idle (hcur : s.cur = none) :
    KeepsCommandState s t ∧ t.doneBit = s.doneBit := by
  cases h with
  | completes c i hcur' => simp [hcur] at hcur'
  | faults c c' hcur' => simp [hcur] at hcur'
  | issues c q => exact ⟨by constructor <;> rfl, rfl⟩
  | rests => exact ⟨by constructor <;> rfl, rfl⟩

theorem EngineChange.cmdcnt_of_cur {c : Cmd} (hcur : s.cur = some c) :
    t.cmdcnt = if checkCmd c s = .none then s.cmdcnt + 1#32 else s.cmdcnt := by
  split
  · next hcheck =>
    obtain ⟨i, -, rfl⟩ := h.of_check hcur hcheck
    simp
  · next hcheck =>
    obtain ⟨c', rfl⟩ := h.of_cause hcur hcheck
    simp

theorem EngineChange.done_of_check {c : Cmd} (hcur : s.cur = some c) (hcheck : checkCmd c s = .none) :
    t.doneBit = (s.doneBit || s.queue.isEmpty) := by
  obtain ⟨i, -, rfl⟩ := h.of_check hcur hcheck
  simp

theorem EngineChange.done_of_cause {c : Cmd} (hcur : s.cur = some c) (hcheck : checkCmd c s ≠ .none) :
    t.doneBit = s.doneBit ∧ t.faulted = true := by
  obtain ⟨c', rfl⟩ := h.of_cause hcur hcheck
  simp

/-- Only a fault-free completion that leaves the queue empty sets DONE (R52). -/
theorem EngineChange.sets_done (ht : t.doneBit = true) (hs : s.doneBit = false) :
    ∃ c, s.cur = some c ∧ checkCmd c s = .none ∧ s.queue = [] := by
  cases hcur : s.cur with
  | none =>
    obtain ⟨-, hdone⟩ := h.keeps_of_idle hcur
    simp [ht, hs] at hdone
  | some c =>
    refine ⟨c, rfl, ?_⟩
    by_cases hcheck : checkCmd c s = .none
    · have hdone := h.done_of_check hcur hcheck
      exact ⟨hcheck, by simpa [ht, hs] using hdone⟩
    · obtain ⟨hdone, -⟩ := h.done_of_cause hcur hcheck
      simp [ht, hs] at hdone

end

theorem HostChange.done_le {s t : State} (h : HostChange s t) (ht : t.doneBit = true) : s.doneBit = true := by
  cases h with
  | push v => rcases push_cases s v with ⟨_, e⟩ | ⟨_, _, e⟩ | ⟨_, _, e⟩ <;> simpa [e] using ht
  | status v =>
    obtain ⟨hdone, -⟩ := Bool.and_eq_true_iff.1 ht
    exact hdone
  | _ => exact ht

/-! ### The turn of a step -/

theorem engineChange_of_step {s t : State} (he : s.engineTurn) (h : step s = .next t) :
    ∃ ts, EngineChange { s with turns := ts } t := by
  rcases step_change h with ⟨-, hchange⟩ | ⟨mv, ts, hmv, -⟩
  · exact hchange
  · exact absurd he (not_engineTurn_of_host hmv)

theorem hostStep_of_step {s t : State} {mv : HostMove} {ts : List Turn} (hmv : s.turns = .host mv :: ts)
    (h : step s = .next t) : hostStep mv { s with turns := ts } = .next t := by
  rwa [step, hmv] at h

theorem step_of_hostMoves {s t : State} {mv : HostMove} {ts : List Turn} (h : hostMoves mv s t)
    (hmv : s.turns = .host mv :: ts) : step s = .next { t with turns := ts } := by
  have hstep := h ts
  rwa [← hmv] at hstep

theorem resetChange_of_step {s t : State} {mv : HostMove} {ts : List Turn} (hmv : s.turns = .host mv :: ts)
    (hr : isReset s mv) (h : step s = .next t) : ResetChange { s with turns := ts } t := by
  rcases hostChange_of_hostStep (hostStep_of_step hmv h) with ⟨-, hchange⟩ | ⟨hn, -⟩
  · exact hchange
  · exact absurd hr hn

theorem hostChange_of_step {s t : State} {mv : HostMove} {ts : List Turn} (hmv : s.turns = .host mv :: ts)
    (hr : ¬ isReset s mv) (h : step s = .next t) : HostChange { s with turns := ts } t := by
  rcases hostChange_of_hostStep (hostStep_of_step hmv h) with ⟨hy, -⟩ | ⟨-, hchange⟩
  · exact absurd hy hr
  · exact hchange

/-- Settles O45: the engine's turn counts as `EngineChange.cmdcnt_of_cur` says, a reset gives 0, and no
other host move touches the counter. -/
theorem cmdcntExact : Obligations.CmdcntExact := by
  unfold Obligations.CmdcntExact
  refine ⟨fun s => hostReads_of_reg (by decide) (by decide) rfl,
    fun s t h => ⟨fun he => ?_, fun mv ts hmv => ⟨fun hr => ?_, fun hr => ?_⟩⟩⟩
  · obtain ⟨ts, hchange⟩ := engineChange_of_step he h
    cases hcur : s.cur with
    | none => exact (hchange.keeps_of_idle hcur).1.cmdcnt
    | some c => exact hchange.cmdcnt_of_cur hcur
  · obtain ⟨m, rfl⟩ := (resetChange_of_step hmv hr h).eq_resetRegisters
    rfl
  · exact (hostChange_of_step hmv hr h).keepsCommandState.cmdcnt

/-- A host write to STATUS with bit 4 set clears DONE (R28). -/
theorem done_of_writeStatus {s t : State} {v : Word} {ts : List Turn}
    (hmv : s.turns = .host (.write (s.hw.base + 0x00C) 4 v) :: ts) (hv : v.getLsbD 4 = true)
    (h : step s = .next t) : t.doneBit = false := by
  have hmoves : hostWrites 0x00C v s (s.writeStatus v) :=
    hostWrites_of_reg (by decide) (by decide) fun _ => rfl
  have hwrite := (step_of_hostMoves hmoves hmv).symm.trans h
  injection hwrite with hwrite
  simp [← hwrite, State.writeStatus, hv]

/-- Settles O46: DONE by the cases of a step, the engine's as `EngineChange.sets_done` says. -/
theorem doneExact : Obligations.DoneExact := by
  unfold Obligations.DoneExact
  intro s t h
  refine ⟨fun c he hcur hcheck hq => ?_, fun ht hs => ?_, fun c he hcur hcheck => ?_,
    fun v ts hmv hv => done_of_writeStatus hmv hv h, fun mv ts hmv hr => ?_⟩
  · obtain ⟨ts, hchange⟩ := engineChange_of_step he h
    exact (hchange.done_of_check hcur hcheck).trans (by simp [hq])
  · rcases step_change h with ⟨he, ts, hchange⟩ | ⟨mv, ts, -, ⟨-, hchange⟩ | ⟨-, hchange⟩⟩
    · exact ⟨he, hchange.sets_done ht hs⟩
    · obtain ⟨m, rfl⟩ := hchange.eq_resetRegisters
      simp at ht
    · exact absurd (hchange.done_le ht) (by simp [hs])
  · obtain ⟨ts, hchange⟩ := engineChange_of_step he h
    exact hchange.done_of_cause hcur hcheck
  · obtain ⟨m, rfl⟩ := (resetChange_of_step hmv hr h).eq_resetRegisters
    rfl

/-- Settles O47: beside a reset and a fault-free completion every turn keeps the command state, and no
effect but SETPARAM's and INIT's touches these registers. -/
theorem parametersOnlyByCommands : Obligations.ParametersOnlyByCommands := by
  unfold Obligations.ParametersOnlyByCommands
  intro s t h hne
  have hkeeps : ∀ ts, ¬ KeepsCommandState { s with turns := ts } t := fun ts hk =>
    hne ⟨hk.ratio, hk.invRatio, hk.beta, hk.mix, hk.omMix, hk.log2n, hk.initDone⟩
  rcases step_change h with ⟨he, ts, hchange⟩ | ⟨mv, ts, hmv, ⟨hr, -⟩ | ⟨-, hchange⟩⟩
  · rcases hchange.completes_or_keeps with ⟨c, i, hcur, hdec, hcheck, rfl⟩ | ⟨-, hk⟩
    · refine .inr ⟨he, c, i, hcur, hdec, hcheck, ?_⟩
      by_contra hi
      push Not at hi
      exact hne (effectOf_params i { s with turns := ts } hi.1 hi.2)
    · exact absurd hk (hkeeps ts)
  · exact .inl ⟨mv, ts, hmv, hr⟩
  · exact absurd hchange.keepsCommandState (hkeeps ts)

/-! ### The engine's turn with and without a command -/

theorem engineStep_of_ok {s : State} {c : Cmd} {i : Instr} (hcur : s.cur = some c) (hdec : decode c = .ok i) :
    engineStep s = exec i s := by simp [engineStep, hcur, completeStep, hdec]

theorem engineStep_of_illegal {s : State} {c : Cmd} {why : Illegal} (hcur : s.cur = some c)
    (hdec : decode c = .illegal why) :
    engineStep s = .next (s.faultEntry (causeOf why) c).endCommand := by
  simp [engineStep, hcur, completeStep, hdec]

theorem engineStep_of_queue {s : State} {c : Cmd} {q : List Cmd} (hcur : s.cur = none)
    (hf : s.faulted = false) (hq : s.queue = c :: q) :
    engineStep s = .next { s with cur := some c, queue := q } := by
  simp [engineStep, hcur, hf, State.issue, hq]

theorem engineStep_of_rest {s : State} (hcur : s.cur = none) (h : s.faulted = true ∨ s.queue = []) :
    engineStep s = .next s := by
  rcases h with h | h <;> simp [engineStep, hcur, h, State.issue]

/-- A fault entry that ends a command, written out (R121, R50). -/
theorem endCommand_faultEntry (s : State) (cause : Cause) (c : Cmd) : (s.faultEntry cause c).endCommand =
    if s.faulted then { s with queue := [], cur := none }
    else { s with faulted := true, cause := cause, faultCmd := c, queue := [], cur := none } := by
  unfold State.faultEntry
  split <;> rfl

theorem causeOf_eq (why : Illegal) :
    causeOf why = if why = .illegalOpcode then .illegalOpcode else .reservedField := by
  cases why <;> rfl

/-- The engine's turn on an illegal encoding is the fault entry of its cause, whatever turns follow. -/
theorem engineMoves_of_illegal {s : State} {c : Cmd} {why : Illegal} (hcur : s.cur = some c)
    (hdec : decode c = .illegal why) : engineMoves s (s.faultEntry (causeOf why) c).endCommand := by
  refine engineMoves_of_engineStep ?_ fun ts => ?_
  · rcases faultEntry_eq s (causeOf why) c with ⟨_, e⟩ | ⟨_, e⟩ <;> simp [e]
  · rw [engineStep_of_illegal (s := { s with turns := ts }) hcur hdec, endCommand_faultEntry,
      endCommand_faultEntry]
    cases s.faulted <;> rfl

/-- Settles O5: the engine's turn on a decoded command is `exec`, on an illegal one the fault entry. -/
theorem stepRunsDecoded : Obligations.StepRunsDecoded := by
  unfold Obligations.StepRunsDecoded
  refine fun s ts c hcur => ⟨fun i hdec => ⟨fun hs => ?_, ?_⟩, fun why hdec => ?_⟩
  · exact (step_of_turns_nil hs).trans (engineStep_of_ok hcur hdec)
  · exact engineStep_of_ok (s := { s with turns := ts }) hcur hdec
  · have hmoves := engineMoves_of_illegal hcur hdec
    rwa [endCommand_faultEntry, causeOf_eq] at hmoves

/-- Settles O6: with CUR empty the engine's turn issues the queue's head or rests. -/
theorem issueOrIdle : Obligations.IssueOrIdle := by
  unfold Obligations.IssueOrIdle
  intro s hcur
  have hrests (h : s.faulted = true ∨ s.queue = []) : engineMoves s s :=
    engineMoves_of_engineStep rfl fun ts => engineStep_of_rest (s := { s with turns := ts }) hcur h
  exact ⟨fun c q hf hq => engineMoves_of_engineStep rfl fun ts =>
      engineStep_of_queue (s := { s with turns := ts }) hcur hf hq,
    fun hf => hrests (.inl hf), fun hq => hrests (.inr hq)⟩

/-! ### The engine drains the queue (R49, R50, R145) -/

/-- From `s` at most `n` steps lead to rest, with a fault or with `held` commands more counted. -/
def DrainsWithin (n held : Nat) (s : State) : Prop :=
  ∃ k t, k ≤ n ∧ Host.Core.run Sys2Proof.core k s = .next t ∧ t.active = false ∧
    (t.faulted = true ∨ t.cmdcnt = s.cmdcnt + BitVec.ofNat 32 held)

theorem DrainsWithin.mono {s : State} {n n' held : Nat} (h : DrainsWithin n held s) (hn : n ≤ n') :
    DrainsWithin n' held s := by
  obtain ⟨k, t, hk, hend⟩ := h
  exact ⟨k, t, hk.trans hn, hend⟩

theorem active_of_rest {s : State} (hcur : s.cur = none) (hq : s.queue = []) : s.active = false := by
  simp [State.active, State.busy, State.cqLevel, hcur, hq]

theorem drainsWithin_of_rest {s : State} (hcur : s.cur = none) (hq : s.queue = []) : DrainsWithin 0 0 s :=
  ⟨0, s, le_rfl, rfl, active_of_rest hcur hq, .inr (by simp)⟩

theorem run_succ_of_step {s t : State} (h : step s = .next t) (k : Nat) :
    Host.Core.run Sys2Proof.core (k + 1) s = Host.Core.run Sys2Proof.core k t := by
  have hcore : Sys2Proof.core.step s = .next t := h
  simp [Host.Core.run, hcore]

/-- One step into a fault with nothing held. -/
theorem drainsWithin_of_fault {s t : State} (h : step s = .next t) (hf : t.faulted = true)
    (hcur : t.cur = none) (hq : t.queue = []) (n held : Nat) : DrainsWithin (n + 1) held s :=
  ⟨1, t, by omega, run_succ_of_step h 0, active_of_rest hcur hq, .inl hf⟩

/-- One step that counts `d` commands, before a run that counts `held` more. -/
theorem DrainsWithin.step {s t : State} {n held d : Nat} (ht : DrainsWithin n held t)
    (h : Machine.step s = .next t) (hd : t.cmdcnt = s.cmdcnt + BitVec.ofNat 32 d) :
    DrainsWithin (n + 1) (held + d) s := by
  obtain ⟨k, u, hk, hrun, hactive, hend⟩ := ht
  refine ⟨k + 1, u, by omega, (run_succ_of_step h k).trans hrun, hactive, hend.imp_right fun hcnt => ?_⟩
  rw [hcnt, hd, BitVec.add_assoc, ← BitVec.ofNat_add, Nat.add_comm d]

/-- A completion: the engine faults and holds nothing, or counts one command and keeps the queue. -/
theorem step_of_cur {s : State} {c : Cmd} (hs : s.turns = []) (hcur : s.cur = some c) :
    ∃ t, step s = .next t ∧ t.turns = [] ∧ t.cur = none ∧
      ((t.faulted = true ∧ t.queue = []) ∨
        (t.faulted = s.faulted ∧ t.queue = s.queue ∧ t.cmdcnt = s.cmdcnt + BitVec.ofNat 32 1)) := by
  obtain ⟨t, h⟩ := engineStep_isNext s
  refine ⟨t, (step_of_turns_nil hs).trans h, ?_⟩
  have hchange := engineChange_of_engineStep h
  by_cases hcheck : checkCmd c s = .none
  · obtain ⟨i, -, rfl⟩ := hchange.of_check hcur hcheck
    exact ⟨by simp [hs], rfl, .inr (by simp)⟩
  · obtain ⟨c', rfl⟩ := hchange.of_cause hcur hcheck
    refine ⟨?_, rfl, .inl (by simp)⟩
    rcases faultEntry_eq s (checkCmd c s) c' with ⟨_, e⟩ | ⟨_, e⟩ <;> simp [e, hs]

theorem drainsWithin_of_cur {s : State} {c : Cmd} {n held : Nat} (hs : s.turns = []) (hcur : s.cur = some c)
    (hrest : ∀ t : State, t.turns = [] → t.cur = none → t.faulted = s.faulted → t.queue = s.queue →
      DrainsWithin n held t) : DrainsWithin (n + 1) (held + 1) s := by
  obtain ⟨t, hstep, hts, htcur, ⟨hf, hq⟩ | ⟨hf, hq, hcnt⟩⟩ := step_of_cur hs hcur
  · exact drainsWithin_of_fault hstep hf htcur hq n _
  · exact (hrest t hts htcur hf hq).step hstep hcnt

/-- With no command in hand each queued command takes an issue and a completion. -/
theorem drainsWithin_of_idle {s : State} {q : List Cmd} (hs : s.turns = []) (hcur : s.cur = none)
    (hf : s.faulted = true → s.queue = []) (hq : s.queue = q) : DrainsWithin (2 * q.length) q.length s := by
  induction q generalizing s with
  | nil => exact drainsWithin_of_rest hcur hq
  | cons c q ih =>
    have hf' : s.faulted = false := by
      by_contra h
      simp [hf (by simpa using h)] at hq
    have hstep : step s = .next { s with cur := some c, queue := q } :=
      (step_of_turns_nil hs).trans (engineStep_of_queue hcur hf' hq)
    have hissued : DrainsWithin (2 * q.length + 1) (q.length + 1) { s with cur := some c, queue := q } :=
      drainsWithin_of_cur hs rfl fun t hts htcur htf htq => ih hts htcur (by simp [htf, hf']) htq
    exact hissued.step (d := 0) hstep (by simp)

/-- Settles O60: a command in hand takes one step, each queued one two, by induction on the queue. -/
theorem engineDrains : Obligations.EngineDrains := by
  unfold Obligations.EngineDrains
  intro s hok hs
  obtain ⟨-, -, hqueue, -⟩ := (ok_iff s).1 hok
  obtain ⟨-, hf, -⟩ := (queueOk_iff s).1 hqueue
  change DrainsWithin _ _ s
  cases hcur : s.cur with
  | none => exact (drainsWithin_of_idle hs hcur hf rfl).mono (by omega)
  | some c =>
    exact drainsWithin_of_cur hs hcur fun t hts htcur htf htq =>
      drainsWithin_of_idle hts htcur (by rwa [htf, htq]) htq

end Sys2Proof.Machine
end

/-! SUPPORT. The host's registers and resets as the register table says (10_state.md section 3): what each
offset reads and what a write there does (R25 to R42), and the two resets (R53, R134 to R136). -/

section
namespace Sys2Proof.Machine

/-! ### The register table -/

/-- The offsets the register table names. -/
def namedOffsets : List Nat :=
  [0x000, 0x004, 0x008, 0x00C, 0x010, 0x014, 0x018, 0x01C, 0x020, 0x030, 0x034, 0x038, 0x03C, 0x040, 0x044,
    0x048, 0x04C, 0x050, 0x054, 0x058, 0x05C, 0x060, 0x080, 0x084, 0x088, 0x08C, 0x090, 0x094, 0x098, 0x09C]

/-- CTRL, STATUS, IRQ_EN and CMD0 to CMD3, the only registers a host write reaches. -/
def writableOffsets : List Nat := [0x008, 0x00C, 0x010, 0x040, 0x044, 0x048, 0x04C]

theorem writableOffsets_subset : writableOffsets ⊆ namedOffsets := by decide

section
variable {off : Nat} {v : Word} {s t : State}

/-- A read of a register at an offset given as a numeral. -/
theorem hostReads_numeral (hv : s.regRead off = v) (h : off < 0x40000 := by decide)
    (ha : off % 4 = 0 := by decide) : hostReads off s v :=
  hostReads_of_reg h ha hv

/-- A write to a register at an offset given as a numeral. -/
theorem hostWrites_numeral (ht : ∀ ts, State.regWrite { s with turns := ts } off v = { t with turns := ts })
    (h : off < 0x40000 := by decide) (ha : off % 4 = 0 := by decide) : hostWrites off v s t :=
  hostWrites_of_reg h ha ht

/-- A write anywhere but at CTRL, STATUS, IRQ_EN and CMD0 to CMD3 is ignored. -/
theorem regWrite_of_not_writable (h : off ∉ writableOffsets) (s : State)
    (v : Word) : s.regWrite off v = s := by
  unfold State.regWrite
  split
  case h_8 => rfl
  all_goals exact absurd (by decide) h

/-- An offset the table does not name reads 0. -/
theorem regRead_of_not_named (h : off ∉ namedOffsets) (s : State) : s.regRead off = 0#32 := by
  unfold State.regRead
  split
  case h_29 => rfl
  all_goals exact absurd (by decide) h

end

/-! ### Resets -/

/-- Settles O56: the CTRL write is the soft reset, which writes abandoned words only. -/
theorem softReset : Obligations.SoftReset := by
  unfold Obligations.SoftReset
  intro s v hv
  have hreset : s.softReset.atReset := atReset_resetRegisters s _
  refine ⟨s.softReset, hostWrites_numeral fun ts => ?_, hreset, rfl,
    irq_of_atReset hreset, fun x hx => (writesIn_softReset s).keepsOutside x hx⟩
  exact writeCtrl_of_srst hv { s with turns := ts }

/-- The byte at an address of DMEM is the first one listed for it (R136). -/
theorem memByte_memOfCells {words x : Nat} (hx : x < 4 * words) (cells : List Host.Cell) :
    memByte (memOfCells words cells) x =
      ((cells.find? fun cell => cell.1 == x).map Prod.snd).getD unlistedByte := by
  induction cells with
  | nil => rfl
  | cons cell cells ih =>
    obtain ⟨a, v⟩ := cell
    by_cases ha : a = x
    · subst ha
      simp [memOfCells, hx, memByte_setByte]
    · have hne : ¬ x = a := fun h => ha h.symm
      simp only [memOfCells]
      split <;> simp [memByte_setByte, hne, ha, ih]

theorem hostMoves_assertReset (s : State) (dmem : List Host.Cell) :
    hostMoves (.assertReset dmem) s (s.resetInput dmem) := fun _ => rfl

/-- The cells that list `content` at every byte of a DMEM of `words` words. -/
def cellsOf (words : Nat) (content : Nat → Byte) : List Host.Cell :=
  (List.range (4 * words)).map fun x => (x, content x)

theorem memByte_cellsOf {words x : Nat} (hx : x < 4 * words) (content : Nat → Byte) :
    memByte (memOfCells words (cellsOf words content)) x = content x := by
  have hfind : (cellsOf words content).find? (fun cell => cell.1 == x) = some (x, content x) := by
    have hrange : (List.range (4 * words)).find? (fun y => y == x) = some x := by
      refine List.find?_range_eq_some.2 ⟨by simp, by simp [hx], fun y hy => by simpa using hy.ne⟩
    simp [cellsOf, List.find?_map, hrange]
  rw [memByte_memOfCells hx, hfind]
  rfl

/-- Settles O57: the registers are at reset, and DMEM holds the cells the move brings. -/
theorem resetInput : Obligations.ResetInput := by
  unfold Obligations.ResetInput
  refine ⟨fun s dmem => ?_, fun s content => ?_⟩
  · have hreset : (s.resetInput dmem).atReset := atReset_resetRegisters s _
    refine ⟨s.resetInput dmem, hostMoves_assertReset s dmem, hreset, rfl, irq_of_atReset hreset,
      memOk_resetInput s dmem, fun x v hx hfind => ?_⟩
    exact (memByte_memOfCells hx dmem).trans (by rw [hfind]; rfl)
  · exact ⟨cellsOf s.dmemWords content, _, hostMoves_assertReset s _, fun x hx => memByte_cellsOf hx content⟩

/-! ### The push, CTRL, STATUS and IRQ_EN -/

theorem push_of_faulted {s : State} (hf : s.faulted = true) (v : Word) : s.push v = s.clearStaging := by
  simp [State.push, hf]

theorem push_of_full {s : State} (hf : s.faulted = false) (hq : s.queue.length = s.hw.cqDepth) (v : Word) :
    s.push v = State.clearStaging
      { s with
        faulted := true
        cause := .cqOverflow
        faultCmd := cmdOfWords s.cmd0 s.cmd1 s.cmd2 v
        queue := [] } := by
  simp [State.push, State.cqLevel, State.faultEntry, hf, hq]

theorem push_of_room {s : State} (hf : s.faulted = false) (hq : s.queue.length < s.hw.cqDepth) (v : Word) :
    s.push v = (s.enqueue (cmdOfWords s.cmd0 s.cmd1 s.cmd2 v)).clearStaging := by
  simp [State.push, State.cqLevel, hf, hq.ne]

/-- Settles O48: the push by FAULT and the room in the queue, and the staging registers by the table. -/
theorem pushRule : Obligations.PushRule := by
  unfold Obligations.PushRule
  refine ⟨fun s v => ⟨fun hf => ?_, fun hf hq => ?_, fun hf hsafe => ?_⟩, fun s v => ?_, rfl, rfl, rfl⟩
  · exact hostWrites_numeral fun ts => push_of_faulted (s := { s with turns := ts }) hf v
  · exact hostWrites_numeral fun ts => push_of_full (s := { s with turns := ts }) hf hq v
  · have hroom : s.queue.length < s.hw.cqDepth := of_decide_eq_true hsafe
    exact hostWrites_numeral fun ts => push_of_room (s := { s with turns := ts }) hf hroom v
  · exact ⟨hostWrites_numeral fun _ => rfl, hostWrites_numeral fun _ => rfl, hostWrites_numeral fun _ => rfl,
      hostReads_numeral rfl, hostReads_numeral rfl, hostReads_numeral rfl, hostReads_numeral rfl⟩

/-- Settles O50: CTRL reads 0, and a write without SRST does what `writeCtrl_of_not_srst` says. -/
theorem ctrlActions : Obligations.CtrlActions := by
  unfold Obligations.CtrlActions
  refine fun s v => ⟨hostReads_numeral rfl, fun hv => ?_⟩
  exact hostWrites_numeral fun ts => writeCtrl_of_not_srst hv { s with turns := ts }

/-- The six bits of STATUS, and zeros above (R28). -/
theorem getLsbD_bits (b0 b1 b2 b3 b4 b5 : Bool) :
    let w := BitVec.ofNat 32 (bitAt b0 0 + bitAt b1 1 + bitAt b2 2 + bitAt b3 3 + bitAt b4 4 + bitAt b5 5)
    w.getLsbD 0 = b0 ∧ w.getLsbD 1 = b1 ∧ w.getLsbD 2 = b2 ∧ w.getLsbD 3 = b3 ∧ w.getLsbD 4 = b4 ∧
      w.getLsbD 5 = b5 ∧ w.toNat < 2 ^ 6 := by
  revert b0 b1 b2 b3 b4 b5
  decide

/-- Settles O51: the STATUS word bit by bit, the two stores, and the interrupt's three sources. -/
theorem statusAndIrq : Obligations.StatusAndIrq := by
  unfold Obligations.StatusAndIrq
  refine fun s v => ⟨⟨s.statusWord, hostReads_numeral rfl, ?_⟩,
    hostWrites_numeral fun ts => ?_, hostWrites_numeral fun _ => rfl, hostReads_numeral rfl, ?_⟩
  · obtain ⟨h0, h1, h2, h3, h4, h5, hlt⟩ :=
      getLsbD_bits s.busy s.active s.initDone s.faulted s.doneBit s.hcollBit
    refine ⟨h0, h1, h2, h3, h4, h5, fun k hk => Nat.testBit_lt_two_pow (hlt.trans_le ?_)⟩
    exact Nat.pow_le_pow_right (by decide) hk
  · simp only [State.regWrite, State.writeStatus]
    cases v.getLsbD 4 <;> cases v.getLsbD 5 <;> simp
  · simp [State.irq, State.doneEn, State.faultEn, State.hcollEn, or_assoc]

/-! ### ID, HWCFG and the other read-only registers -/

theorem toNat_hwcfgWord {h : HwCfg} (hl : h.legal = true) :
    (hwcfgWord h).toNat = h.log2nMax + h.dmemLog2 * 2 ^ 8 + h.cqDepth * 2 ^ 16 := by
  have hbounds := (legal_iff h).1 hl
  simp only [hwcfgWord, BitVec.toNat_ofNat]
  omega

/-- The fields of a word packed as HWCFG is, and the bits between them (R26). -/
theorem extractLsb'_of_packed {w : Word} {l d q : Nat} (hl : l ≤ 13) (hd : d ≤ 16) (hq : q ≤ 255)
    (hw : w.toNat = l + d * 2 ^ 8 + q * 2 ^ 16) :
    (w.extractLsb' 0 5).toNat = l ∧ (w.extractLsb' 5 3).toNat = 0 ∧ (w.extractLsb' 8 5).toNat = d ∧
    (w.extractLsb' 13 3).toNat = 0 ∧ (w.extractLsb' 16 8).toNat = q ∧ (w.extractLsb' 24 8).toNat = 0 := by
  simp only [BitVec.extractLsb'_toNat, Nat.shiftRight_eq_div_pow]
  omega

/-- No step changes the constants of the hardware (R26). -/
theorem hw_of_step {s t : State} (h : step s = .next t) : t.hw = s.hw := by
  rcases step_change h with ⟨-, ts, hchange⟩ | ⟨mv, ts, -, ⟨-, hchange⟩ | ⟨-, hchange⟩⟩
  · rcases hchange.completes_or_keeps with ⟨c, i, -, -, -, rfl⟩ | ⟨-, hk⟩
    · simp
    · exact hk.hw
  · obtain ⟨m, rfl⟩ := hchange.eq_resetRegisters
    rfl
  · exact hchange.keepsCommandState.hw

/-- Settles O52: ID is a constant, HWCFG is read field by field, and `hw_of_step`. -/
theorem idAndHwcfg : Obligations.IdAndHwcfg := by
  unfold Obligations.IdAndHwcfg
  refine ⟨fun s v => ⟨hostReads_numeral rfl,
      hostWrites_numeral fun _ => regWrite_of_not_writable (by decide) _ v,
      hostWrites_numeral fun _ => regWrite_of_not_writable (by decide) _ v⟩,
    fun s hlegal => ⟨hwcfgWord s.hw, hostReads_numeral rfl, ?_⟩, fun s t => hw_of_step⟩
  obtain ⟨-, hl, -, hd, -, hq, -⟩ := (legal_iff s.hw).1 hlegal
  exact extractLsb'_of_packed hl hd hq (toNat_hwcfgWord hlegal)

theorem wordOfCmd_eq_extractLsb' (w : Cmd) (k : Nat) : wordOfCmd w k = w.extractLsb' (32 * k) 32 := by
  apply BitVec.eq_of_toNat_eq
  simp [wordOfCmd, field, Nat.shiftRight_eq_div_pow]

/-- The read-only registers beside ID and HWCFG. -/
def readOnlyOffsets : List Nat :=
  [0x014, 0x018, 0x01C, 0x020, 0x030, 0x034, 0x038, 0x03C, 0x050, 0x054, 0x058, 0x05C, 0x060, 0x080, 0x084,
    0x088, 0x08C, 0x090, 0x094, 0x098, 0x09C]

theorem readOnlyOffsets_spec : ∀ off ∈ readOnlyOffsets, off < 0x40000 ∧ off % 4 = 0 ∧ off ∉ writableOffsets := by
  decide

/-- The code of a cause as CAUSE reads (R119). -/
theorem regRead_cause (s : State) : s.regRead 0x014 = s.cause.code.setWidth 32 := rfl

theorem regRead_ptr (s : State) (r : Fin 8) : s.regRead (0x080 + 4 * r.val) = (s.p.get r).setWidth 32 := by
  fin_cases r <;> rfl

/-- Settles O53: each register is one line of the table, and none of them is writable. -/
theorem readOnlyRegisters : Obligations.ReadOnlyRegisters := by
  unfold Obligations.ReadOnlyRegisters
  refine ⟨fun s => ⟨hostReads_numeral ?_, fun hlt => hostReads_numeral ?_, hostReads_numeral rfl,
    hostReads_numeral (wordOfCmd_eq_extractLsb' s.faultCmd 0),
    hostReads_numeral (wordOfCmd_eq_extractLsb' s.faultCmd 1),
    hostReads_numeral (wordOfCmd_eq_extractLsb' s.faultCmd 2),
    hostReads_numeral (wordOfCmd_eq_extractLsb' s.faultCmd 3), hostReads_numeral rfl, hostReads_numeral rfl,
    hostReads_numeral rfl, hostReads_numeral rfl, hostReads_numeral rfl,
    fun r => hostReads_of_reg (by omega) (by omega) (regRead_ptr s r)⟩, fun s v off hoff => ?_,
    ptr_powerOn HwCfg.suggested [] []⟩
  · rw [regRead_cause]
    cases s.cause <;> rfl
  · exact congrArg (BitVec.ofNat 32) (Nat.mod_eq_of_lt hlt)
  · obtain ⟨hlt, ha, hn⟩ := readOnlyOffsets_spec off hoff
    exact hostWrites_of_reg hlt ha fun ts => regWrite_of_not_writable hn _ v

/-- Settles O54: an offset the table does not name is neither read nor written. -/
theorem reservedOffsets : Obligations.ReservedOffsets := by
  unfold Obligations.ReservedOffsets
  exact fun s v off hoff ha hn => ⟨hostReads_of_reg hoff ha (regRead_of_not_named hn s),
    hostWrites_of_reg hoff ha fun ts => regWrite_of_not_writable (fun h => hn (writableOffsets_subset h)) _ v⟩

end Sys2Proof.Machine
end

/-! PROOF. The host's accesses by address and width (20_memory.md R55, R59), and the DMEM window word by word
(R60, R61). -/

section
namespace Sys2Proof.Machine

/-! ### Accesses by address and width -/

section
variable {s : State} {addr bytes : Nat} {effect : Nat → State}

/-- An aligned 32-bit access inside the region takes effect at its byte offset (R55). -/
theorem hostAccess_of_defined (hin : s.hw.base ≤ addr ∧ addr < s.hw.base + regionSize)
    (hb : bytes = 4) (ha : (addr - s.hw.base) % 4 = 0) :
    hostAccess s addr bytes effect = .next (effect (addr - s.hw.base)) := by
  rw [hostAccess, if_neg (by omega), if_neg (by omega)]

/-- Another width or alignment inside the region is refused (R55). -/
theorem hostAccess_of_undefined (hin : s.hw.base ≤ addr ∧ addr < s.hw.base + regionSize)
    (hu : ¬ (bytes = 4 ∧ (addr - s.hw.base) % 4 = 0)) :
    hostAccess s addr bytes effect = .refused .undefinedAccess := by
  rw [hostAccess, if_neg (by omega), if_pos (by omega)]

/-- Outside the region no address is the DSE's (R59). -/
theorem hostAccess_of_outside (hout : ¬ (s.hw.base ≤ addr ∧ addr < s.hw.base + regionSize)) :
    hostAccess s addr bytes effect = .fault .outsideRegion := by
  rw [hostAccess, if_pos (by omega)]

end

/-- Settles O55: a read and a write are both a `hostAccess`, whose three outcomes are told apart by the
address, then by the width and alignment. -/
theorem definedAccesses : Obligations.DefinedAccesses := by
  unfold Obligations.DefinedAccesses
  intro s ts addr bytes v read write inside aligned
  let s' : State := { s with turns := ts }
  have hread : step read = hostAccess s' addr bytes s'.readAt := rfl
  have hwrite : step write = hostAccess s' addr bytes fun off => s'.writeAt off v := rfl
  rw [hread, hwrite]
  refine ⟨fun ⟨hin, hb, ha⟩ => ?_, fun ⟨hin, hu⟩ => ?_, fun hout => ?_, rfl⟩
  · exact ⟨⟨_, hostAccess_of_defined hin hb ha⟩, _, hostAccess_of_defined hin hb ha⟩
  · exact ⟨hostAccess_of_undefined hin hu, hostAccess_of_undefined hin hu⟩
  · exact ⟨hostAccess_of_outside hout, hostAccess_of_outside hout⟩

/-! ### The DMEM window -/

theorem active_of_quiet {s : State} (h : s.quiet = true) : s.active = false := by
  simpa [State.quiet] using h

theorem active_of_not_quiet {s : State} (h : s.quiet = false) : s.active = true := by
  simpa [State.quiet] using h

section
variable {s : State} {i : Nat}

theorem windowRead_of_active (h : s.active = true) (i : Nat) :
    s.windowRead i = { s with rdata := 0#32, hcollBit := true } := by
  rw [State.windowRead, if_pos h]

theorem windowRead_of_inside (h : s.active = false) (hi : i < s.dmemWords) :
    s.windowRead i = { s with rdata := memWord s.mem i } := by
  simp [State.windowRead, h, hi]

theorem windowRead_of_beyond (h : s.active = false) (hi : s.dmemWords ≤ i) :
    s.windowRead i = { s with rdata := 0#32 } := by
  simp [State.windowRead, h, hi.not_gt]

theorem windowWrite_of_active (h : s.active = true) (i : Nat) (v : Word) :
    s.windowWrite i v = { s with hcollBit := true } := by
  rw [State.windowWrite, if_pos h]

theorem windowWrite_of_inside (h : s.active = false) (hi : i < s.dmemWords) (v : Word) :
    s.windowWrite i v = { s with mem := setWord s.mem i v } := by
  simp [State.windowWrite, State.setMem, h, hi]

theorem windowWrite_of_beyond (h : s.active = false) (hi : s.dmemWords ≤ i) (v : Word) :
    s.windowWrite i v = s := by
  simp [State.windowWrite, h, hi.not_gt]

/-- The byte offset of word `i` of the window lies above the registers and leads back to `i` (R60). -/
theorem windowOffset_spec (i : Nat) :
    ¬ 0x40000 + 4 * i < windowBase ∧ (0x40000 + 4 * i - windowBase) / 4 = i := by
  unfold windowBase
  omega

theorem readAt_window (s : State) (i : Nat) : s.readAt (0x40000 + 4 * i) = s.windowRead i := by
  obtain ⟨hge, hword⟩ := windowOffset_spec i
  rw [State.readAt, if_neg hge, hword]

theorem writeAt_window (s : State) (i : Nat) (v : Word) :
    s.writeAt (0x40000 + 4 * i) v = s.windowWrite i v := by
  obtain ⟨hge, hword⟩ := windowOffset_spec i
  rw [State.writeAt, if_neg hge, hword]

/-- A read of word `i` of the window does what `windowRead` says. -/
theorem hostMoves_read_window {t : State} (hi : i < 0x10000)
    (ht : ∀ ts, State.windowRead { s with turns := ts } i = { t with turns := ts }) :
    hostMoves (.read (s.hw.base + (0x40000 + 4 * i)) 4) s t :=
  hostMoves_read_of (by omega) (by omega) fun ts => (readAt_window _ i).trans (ht ts)

/-- A write of word `i` of the window does what `windowWrite` says. -/
theorem hostWrites_window {t : State} {v : Word} (hi : i < 0x10000)
    (ht : ∀ ts, State.windowWrite { s with turns := ts } i v = { t with turns := ts }) :
    hostWrites (0x40000 + 4 * i) v s t :=
  hostWrites_of (by omega) (by omega) fun ts => (writeAt_window _ i v).trans (ht ts)

end

/-- Settles O49: word `i` of the window by ACTIVE and by whether DMEM has the word. -/
theorem dmemWindow : Obligations.DmemWindow := by
  unfold Obligations.DmemWindow
  refine fun s i v hi => ⟨fun hq hlt => ?_, fun hq hge => ?_, fun hq => ?_⟩
  · have hidle := active_of_quiet hq
    refine ⟨hostMoves_read_window hi fun ts => ?_, setWord s.mem i v, hostWrites_window hi fun ts => ?_,
      writesOne_setWord s.mem i v⟩
    · exact windowRead_of_inside (s := { s with turns := ts }) hidle hlt
    · exact windowWrite_of_inside (s := { s with turns := ts }) hidle hlt v
  · have hidle := active_of_quiet hq
    refine ⟨hostMoves_read_window hi fun ts => ?_, hostWrites_window hi fun ts => ?_⟩
    · exact windowRead_of_beyond (s := { s with turns := ts }) hidle hge
    · exact windowWrite_of_beyond (s := { s with turns := ts }) hidle hge v
  · have hactive := active_of_not_quiet hq
    refine ⟨hostMoves_read_window hi fun ts => ?_, hostWrites_window hi fun ts => ?_⟩
    · exact windowRead_of_active (s := { s with turns := ts }) hactive i
    · exact windowWrite_of_active (s := { s with turns := ts }) hactive i v

end Sys2Proof.Machine
end

/-! SUPPORT. Decoding and encoding by fields (30_encoding.md R71 to R80): a command is its opcode and its fields
at their places, and it decodes exactly if its opcode is in the map and the fields its format does not use are
zero. -/

section
namespace Sys2Proof

open Machine
open Laws.FieldPositions (Fit toNat_packFields)

/-! ### The fields a format does not use (R74, R75) -/

/-- All the fields beside OPC (R72). -/
def allPlaces : List Place := [placePR, placeLG, placeCNT, placeA, placeB, placeC, placeD, placeIMM]

/-- The fields a format uses, by their places (R74). -/
def Format.used : Format → List Place
  | .none => []
  | .k => [placeCNT]
  | .ki => [placeCNT, placeIMM]
  | .rk => [placePR, placeCNT]
  | .aki => [placeCNT, placeA, placeIMM]
  | .a => [placeA]
  | .ab => [placeA, placeB]
  | .abc => [placeA, placeB, placeC]
  | .abk => [placeCNT, placeA, placeB]
  | .abck => [placeCNT, placeA, placeB, placeC]
  | .ca => [placePR, placeLG, placeCNT, placeA, placeB]
  | .cc => [placePR, placeLG, placeCNT, placeB, placeC]
  | .cad => [placePR, placeLG, placeCNT, placeA, placeB, placeD]
  | .cac => [placePR, placeLG, placeCNT, placeA, placeB, placeC]

/-- The fields a format does not use (R75). -/
def Format.unused (fmt : Format) : List Place := allPlaces.filter (· ∉ fmt.used)

theorem mustBeZero_eq_maskOf (fmt : Format) : fmt.mustBeZero = maskOf fmt.unused := by
  cases fmt <;> decide

/-- The fields with those a format does not use set to zero. -/
def Fields.clear (f : Fields) (fmt : Format) : Fields where
  pr := if placePR ∈ fmt.unused then 0 else f.pr
  lg := if placeLG ∈ fmt.unused then 0 else f.lg
  cnt := if placeCNT ∈ fmt.unused then 0 else f.cnt
  a := if placeA ∈ fmt.unused then 0 else f.a
  b := if placeB ∈ fmt.unused then 0 else f.b
  c := if placeC ∈ fmt.unused then 0 else f.c
  d := if placeD ∈ fmt.unused then 0 else f.d
  imm := if placeIMM ∈ fmt.unused then 0#32 else f.imm

/-- A fact of every field the format does not use, field by field. -/
theorem forall_mem_unused_iff (fmt : Format) (P : Place → Prop) : (∀ x ∈ fmt.unused, P x) ↔
    (placePR ∈ fmt.unused → P placePR) ∧ (placeLG ∈ fmt.unused → P placeLG) ∧
    (placeCNT ∈ fmt.unused → P placeCNT) ∧ (placeA ∈ fmt.unused → P placeA) ∧
    (placeB ∈ fmt.unused → P placeB) ∧ (placeC ∈ fmt.unused → P placeC) ∧
    (placeD ∈ fmt.unused → P placeD) ∧ (placeIMM ∈ fmt.unused → P placeIMM) := by
  have hall : (∀ x ∈ fmt.unused, P x) ↔ ∀ x ∈ allPlaces, x ∈ fmt.unused → P x :=
    ⟨fun h x _ hx => h x hx, fun h x hx => h x (List.mem_filter.1 hx).1 hx⟩
  rw [hall]
  simp [allPlaces]

theorem clear_eq_self_iff (f : Fields) (fmt : Format) : f.clear fmt = f ↔
    (placePR ∈ fmt.unused → f.pr = 0) ∧ (placeLG ∈ fmt.unused → f.lg = 0) ∧
    (placeCNT ∈ fmt.unused → f.cnt = 0) ∧ (placeA ∈ fmt.unused → f.a = 0) ∧
    (placeB ∈ fmt.unused → f.b = 0) ∧ (placeC ∈ fmt.unused → f.c = 0) ∧
    (placeD ∈ fmt.unused → f.d = 0) ∧ (placeIMM ∈ fmt.unused → f.imm = 0#32) := by
  cases f
  simp only [Fields.clear, Fields.mk.injEq, ite_eq_right_iff, eq_comm (a := (0 : Nat)),
    eq_comm (a := (0 : Fin 8)), eq_comm (a := 0#32)]

/-- The bits a format wants zero are zero exactly when the fields it does not use are. -/
theorem and_mustBeZero_eq_zero_iff (c : Cmd) (fmt : Format) :
    c &&& fmt.mustBeZero = 0#128 ↔ (fieldsOf c).clear fmt = fieldsOf c := by
  have hpr : (fieldsOf c).pr = 0 ↔ c.toNat / 2 ^ 8 % 2 ^ 3 = 0 := by
    simp [fieldsOf, field, Fin.ext_iff]
  have himm : (fieldsOf c).imm = 0#32 ↔ c.toNat / 2 ^ 96 % 2 ^ 32 = 0 := by
    simp [fieldsOf, field, ← BitVec.toNat_inj]
  rw [mustBeZero_eq_maskOf, and_maskOf_eq_zero_iff, forall_mem_unused_iff, clear_eq_self_iff, hpr, himm]
  rfl

/-! ### A command is its opcode and its fields (R71, R72) -/

theorem fit_fieldsOf (c : Cmd) : Fit (fieldsOf c) := by
  constructor <;> exact Nat.mod_lt _ (by decide)

theorem opcOf_lt (c : Cmd) : opcOf c < 2 ^ 8 := Nat.mod_lt _ (by decide)

/-- Packing the opcode and the fields of a command gives the command: no bit lies outside them. -/
theorem packFields_opcOf_fieldsOf (c : Cmd) : packFields (opcOf c) (fieldsOf c) = c := by
  apply BitVec.eq_of_toNat_eq
  rw [toNat_packFields _ _ (opcOf_lt c) (fit_fieldsOf c)]
  have hc := c.isLt
  simp only [opcOf, fieldsOf, field, Fin.ofNat, BitVec.toNat_ofNat]
  omega

/-! ### The opcode map and the commands (R76) -/

/-- An opcode's row builds a command of that opcode, which holds the fields the row's format uses. -/
theorem build_of_opRow {op : Nat} {row : OpRow} (h : opRow op = some row) (f : Fields) :
    (row.build f).opc = op ∧ (row.build f).fields = f.clear row.fmt := by
  unfold opRow at h
  split at h <;> cases h <;> exact ⟨rfl, rfl⟩

/-- A command's opcode has the row that builds the command from its fields. -/
theorem opRow_opc (i : Instr) : ∃ row, opRow i.opc = some row ∧ row.build i.fields = i := by
  cases i <;> exact ⟨_, rfl, rfl⟩

/-- The converse of `fit_of_wf`: the fields a command has are all that its well-formedness asks of. -/
theorem wf_of_fit {i : Instr} (h : Fit i.fields) : i.wf = true := by
  obtain ⟨hlg, hcnt, ha, hb, hc, hd⟩ := h
  cases i <;> simp_all [Instr.wf, Instr.fields, fits16, fits5]

/-! ### Decoding, said once (R80) -/

/-- A word decodes to a command exactly if its opcode's row builds the command from its fields and the fields
the row's format does not use are zero. -/
theorem decode_eq_ok_iff (c : Cmd) (i : Instr) : decode c = .ok i ↔
    ∃ row, opRow (opcOf c) = some row ∧ (fieldsOf c).clear row.fmt = fieldsOf c ∧
      row.build (fieldsOf c) = i := by
  cases h : opRow (opcOf c) with
  | none => simp [decode, h]
  | some row =>
    by_cases hz : c &&& row.fmt.mustBeZero = 0#128 <;>
      simp [decode, h, hz, ← and_mustBeZero_eq_zero_iff]

theorem decode_of_opRow_none {c : Cmd} (h : opRow (opcOf c) = none) :
    decode c = .illegal .illegalOpcode := by simp [decode, h]

/-! ### The reserved opcodes (R77) -/

/-- The opcodes of the map (R76). -/
def mapOpcodes : List Nat :=
  [0x00, 0x01, 0x02, 0x03, 0x04, 0x10, 0x11, 0x12, 0x13, 0x14, 0x15, 0x16, 0x20, 0x21, 0x22,
    0x30, 0x31, 0x32, 0x33, 0x34, 0x35, 0x36, 0x37, 0x40, 0x41, 0x42]

/-- The ranges of R77. -/
def reservedOpcode (op : Nat) : Prop :=
  5 ≤ op ∧ op ≤ 0x0F ∨ 0x17 ≤ op ∧ op ≤ 0x1F ∨ 0x23 ≤ op ∧ op ≤ 0x2F ∨ 0x38 ≤ op ∧ op ≤ 0x3F ∨ 0x43 ≤ op

theorem reservedOpcode_iff_not_mem (op : Nat) : reservedOpcode op ↔ op ∉ mapOpcodes := by
  simp only [reservedOpcode, mapOpcodes, List.mem_cons, List.not_mem_nil, or_false]
  omega

theorem opc_mem_mapOpcodes (i : Instr) : i.opc ∈ mapOpcodes := by
  cases i <;> simp [Instr.opc, mapOpcodes]

/-- A reserved opcode has no row: the row would build a command, and a command's opcode is in the map. -/
theorem opRow_of_reserved {op : Nat} (h : reservedOpcode op) : opRow op = none := by
  rw [reservedOpcode_iff_not_mem] at h
  by_contra hne
  obtain ⟨row, hrow⟩ := Option.ne_none_iff_exists'.1 hne
  have hopc := (build_of_opRow hrow noFields).1
  exact h (hopc ▸ opc_mem_mapOpcodes _)

/-! ### The four words of a command (R71, R72) -/

theorem toNat_cmdOfWords (w0 w1 w2 w3 : Word) : (cmdOfWords w0 w1 w2 w3).toNat =
    w0.toNat + w1.toNat * 2 ^ 32 + w2.toNat * 2 ^ 64 + w3.toNat * 2 ^ 96 := by
  simp only [cmdOfWords, BitVec.toNat_append, ← Nat.shiftLeft_add_eq_or_of_lt (BitVec.isLt _)]
  simp only [Nat.shiftLeft_eq]
  omega

end Sys2Proof
end

/-! PROOF. Decoding and encoding are inverse to each other, and the reserved opcodes fault (30_encoding.md R71
to R80). -/

section
namespace Sys2Proof

open Machine
open Laws.FieldPositions (of_wf)

/-- Settles O1: the encoding holds the opcode and the fields, and the fields it was built from are clear. -/
theorem decodeOfEncode : Obligations.DecodeOfEncode := by
  unfold Obligations.DecodeOfEncode
  intro i hwf
  obtain ⟨hopc, hfields⟩ := of_wf i hwf
  obtain ⟨row, hrow, hbuild⟩ := opRow_opc i
  have hclear : i.fields.clear row.fmt = i.fields := by
    rw [← (build_of_opRow hrow i.fields).2, hbuild]
  rw [decode_eq_ok_iff, hopc, hfields]
  exact ⟨row, hrow, hclear, hbuild⟩

/-- Settles O2: the word is packed from its opcode and its fields, and the decoded command holds both. -/
theorem encodeOfDecode : Obligations.EncodeOfDecode := by
  unfold Obligations.EncodeOfDecode
  intro c i h
  obtain ⟨row, hrow, hclear, rfl⟩ := (decode_eq_ok_iff c i).1 h
  obtain ⟨hopc, hfields⟩ := build_of_opRow hrow (fieldsOf c)
  rw [hclear] at hfields
  constructor
  · exact wf_of_fit (by rw [hfields]; exact fit_fieldsOf c)
  · rw [encode, hopc, hfields, packFields_opcOf_fieldsOf]

/-- Settles O4: no row, so the engine's turn is the fault entry of an illegal encoding. -/
theorem reservedOpcodesFault : Obligations.ReservedOpcodesFault := by
  unfold Obligations.ReservedOpcodesFault
  refine ⟨fun op _ => reservedOpcode_iff_not_mem op, ?_⟩
  intro c s op hop hcur
  have hopc : opcOf c = op := by simp [opcOf, field, op]
  have hdec := decode_of_opRow_none (hopc ▸ opRow_of_reserved hop)
  have hmoves := engineMoves_of_illegal hcur hdec
  rwa [endCommand_faultEntry] at hmoves

/-- Settles O3: each field is read off the sum of the four words; the examples are evaluated. -/
theorem fieldPositions : Obligations.FieldPositions := by
  unfold Obligations.FieldPositions
  refine ⟨fun w0 w1 w2 w3 => ?_, by decide, by decide, by decide, by decide, by decide, by decide⟩
  have h0 := w0.isLt
  have h1 := w1.isLt
  have h2 := w2.isLt
  have h3 := w3.isLt
  simp only [opcOf, fieldsOf, field, toNat_cmdOfWords, BitVec.extractLsb'_toNat,
    Nat.shiftRight_eq_div_pow, Fin.ofNat, ← BitVec.toNat_inj, BitVec.toNat_ofNat]
  refine ⟨?_, ?_, ?_, ?_, ?_, ?_, ?_, ?_, ?_⟩ <;> omega

end Sys2Proof
end

/-! SUPPORT. The outcomes of the commands that use N (40_fft.md), and loops whose passes write places of their
own: each place is left as its pass wrote it. -/

section
namespace Sys2Proof.Machine

/-! ### Check of a command that uses N (R119, R120) -/

/-- A command that uses N and has no illegal field value passes Check once INIT is done and its extents are in
range, and faults in the order of Check otherwise. -/
theorem outcomes_of_usesN {i : Instr} {s : State} {fit : Prop} (hn : usesN i = true)
    (hb : badField s.hw.log2nMax s.nPoints i = false)
    (hfit : (∀ e ∈ extents s.nPoints i, s.fits e.1 e.2) ↔ fit) :
    (s.initDone = true ∧ fit → check i s = .none) ∧
    (s.initDone = false → faultsWith i s .notInit) ∧
    (s.initDone = true ∧ ¬ fit → faultsWith i s .addrRange) := by
  rw [← hfit]
  refine ⟨fun ⟨hi, he⟩ => ?_, fun hi => ?_, fun ⟨hi, he⟩ => ?_⟩
  · exact (check_eq_none_iff i s).2 ⟨fun _ => hi, hb, he⟩
  · exact faultsWith_of_check (check_eq_notInit hn hi) (by decide)
  · exact faultsWith_of_check (check_eq_addrRange (fun _ => hi) hb he) (by decide)

theorem completesWith_of_check {i : Instr} {s : State} {m : Mem} {post : Mem → Prop} (h : check i s = .none)
    (heffect : effectOf i s = s.setMem m) (hpost : post m) : completesWith i s post :=
  ⟨m, finishes_of_check h (by rw [heffect]; rfl), hpost⟩

/-- A command that writes one extent keeps every byte outside it. -/
theorem keepsOutside_extent (i : Instr) (s : State) {a n : Nat} (h : writtenExtents s.nPoints i = [(a, n)]) :
    keepsOutside s.mem (effectOf i s).mem fun w => a ≤ w ∧ w < a + n := by
  have hframe := (writesIn_effectOf i s).keepsOutside
  have hext : inExtents [(a, n)] = fun w => a ≤ w ∧ w < a + n := by simp [funext_iff, inExtents]
  rwa [h, hext] at hframe

/-! ### Loops whose passes write places of their own -/

section
variable {σ α : Type} {P : σ → Prop} {read : σ → Nat → α} {n : Nat} {body : Nat → σ → σ} {s₀ : σ}

/-- A loop of which pass `i` gives the places it owns their value in `f`, as long as they hold what they held
before the loop, and keeps every other place: each place owned by one of the passes ends with its value, and
the others as they were. `P` is what the passes need of the state and keep. -/
theorem loop_read (read : σ → Nat → α) (owner : Nat → Nat) (f : Nat → α) (h₀ : P s₀)
    (hkeep : ∀ i s, i < n → P s → P (body i s))
    (hpass : ∀ i s k, i < n → P s → (∀ k, owner k = i → read s k = read s₀ k) →
      read (body i s) k = if owner k = i then f k else read s k) (k : Nat) :
    read (loop n body s₀) k = if owner k < n then f k else read s₀ k := by
  induction n generalizing k with
  | zero => simp
  | succ n ih =>
    have ih := ih (fun i s hi => hkeep i s (by omega)) fun i s k hi => hpass i s k (by omega)
    have hP : P (loop n body s₀) := loop_keeps (fun i s hi => hkeep i s (by omega)) h₀
    have hown : ∀ k, owner k = n → read (loop n body s₀) k = read s₀ k := fun k hk => by
      rw [ih, if_neg (by omega)]
    rw [loop_succ, hpass n _ k (by omega) hP hown, ih]
    rcases lt_trichotomy (owner k) n with h | h | h
    · rw [if_neg h.ne, if_pos h, if_pos (by omega)]
    · rw [if_pos h, if_pos (by omega)]
    · rw [if_neg h.ne', if_neg (by omega), if_neg (by omega)]

/-- The pass that owns place `k` of `n` places in a row from `base` on; `n` owns the others. -/
def rowOwner (base n k : Nat) : Nat := if k < base then n else k - base

/-- The loop that fills `n` places in a row. -/
theorem loop_row {read : σ → Nat → α} {base : Nat} (v : Nat → α) (h₀ : P s₀)
    (hkeep : ∀ i s, i < n → P s → P (body i s))
    (hpass : ∀ i s k, i < n → P s → read (body i s) k = if k = base + i then v i else read s k)
    {i : Nat} (hi : i < n) : read (loop n body s₀) (base + i) = v i := by
  have hown : ∀ i, i < n → ∀ k, rowOwner base n k = i ↔ k = base + i := fun i hi k => by
    unfold rowOwner
    split_ifs <;> omega
  rw [loop_read read (rowOwner base n) (fun k => v (k - base)) h₀ hkeep fun i s k hi hP _ => ?_,
    (hown i hi _).2 rfl, if_pos hi, Nat.add_sub_cancel_left]
  rw [hpass i s k hi hP]
  simp only [hown i hi]
  split_ifs with hk
  · rw [hk, Nat.add_sub_cancel_left]
  · rfl

/-- The pass that owns place `k` of two rows of `n` places, one after the other, from `base` on; the passes
from `n` on own the others. -/
def rowsOwner (base n k : Nat) : Nat :=
  if k < base then n else if k < base + n then k - base else k - base - n

theorem rowsOwner_eq_iff {base n i : Nat} (hi : i < n) (k : Nat) :
    rowsOwner base n k = i ↔ k = base + i ∨ k = base + n + i := by
  unfold rowsOwner
  split_ifs <;> omega

/-- The loop over two rows of `n` places, one after the other, whose pass `i` gives place `i` of the first row
the value `v i` and of the second `w i`, as long as the two hold what they held before the loop. -/
theorem loop_two_rows {read : σ → Nat → α} {base : Nat} (v w : Nat → α) (h₀ : P s₀)
    (hkeep : ∀ i s, i < n → P s → P (body i s))
    (hpass : ∀ i s k, i < n → P s → read s (base + i) = read s₀ (base + i) →
      read s (base + n + i) = read s₀ (base + n + i) →
      read (body i s) k = if k = base + n + i then w i else if k = base + i then v i else read s k) :
    (∀ i, i < n → read (loop n body s₀) (base + i) = v i ∧ read (loop n body s₀) (base + n + i) = w i) ∧
    ∀ k, k < base ∨ base + n + n ≤ k → read (loop n body s₀) k = read s₀ k := by
  have h := loop_read read (rowsOwner base n)
    (fun k => if k < base + n then v (k - base) else w (k - base - n)) h₀ hkeep fun i s k hi hP hown => ?_
  · refine ⟨fun i hi => ⟨?_, ?_⟩, fun k hk => ?_⟩
    · rw [h, (rowsOwner_eq_iff hi _).2 (.inl rfl), if_pos hi, if_pos (by omega), Nat.add_sub_cancel_left]
    · rw [h, (rowsOwner_eq_iff hi _).2 (.inr rfl), if_pos hi, if_neg (by omega)]
      congr 1
      omega
    · rw [h, if_neg]
      intro hlt
      have := (rowsOwner_eq_iff hlt k).1 rfl
      omega
  · rw [hpass i s k hi hP (hown _ ((rowsOwner_eq_iff hi _).2 (.inl rfl)))
      (hown _ ((rowsOwner_eq_iff hi _).2 (.inr rfl)))]
    simp only [rowsOwner_eq_iff hi]
    by_cases hlo : k = base + i
    · rw [if_neg (by omega), if_pos hlo, if_pos (.inl hlo), if_pos (by omega), hlo, Nat.add_sub_cancel_left]
    · by_cases hhi : k = base + n + i
      · rw [if_pos hhi, if_pos (.inr hhi), if_neg (by omega), show k - base - n = i by omega]
      · rw [if_neg hhi, if_neg hlo, if_neg (by tauto)]

end

end Sys2Proof.Machine
end

/-! PROOF. INIT, FFTSHIFT and the conversions of a bin (40_fft.md R88, R91 to R94). -/

section
namespace Sys2Proof.Machine

/-- Settles O12: CNT fits CFG.LOG2N because LOG2N_MAX is at most 13. -/
theorem initResult : Obligations.InitResult := by
  unfold Obligations.InitResult
  refine ⟨encodedAs_of_row rfl (by decide), fun s cnt hlegal => ⟨fun hcnt => ?_, fun hcnt => ?_⟩⟩
  · obtain ⟨-, hmax, -⟩ := (legal_iff s.hw).1 hlegal
    have hcheck : check (.init cnt) s = .none :=
      (check_eq_none_iff _ s).2 ⟨nofun, by simp [badField]; omega, nofun⟩
    refine ⟨BitVec.ofNat 5 cnt, finishes_of_check hcheck rfl, ?_⟩
    rw [BitVec.toNat_ofNat]
    omega
  · exact faultsWith_of_check (check_eq_fieldRange nofun (by simp [badField]; omega)) (by decide)

/-- The words after FFTSHIFT: pass `i` exchanges word `i` of the two halves (R91). -/
theorem memWord_fftshiftMem (n a : Nat) (m : Mem) {i : Nat} (hi : i < n / 2) :
    memWord (fftshiftMem n a m) (a + i) = memWord m (a + n / 2 + i) ∧
    memWord (fftshiftMem n a m) (a + n / 2 + i) = memWord m (a + i) := by
  have h := loop_two_rows (P := fun _ => True) (read := memWord) (s₀ := m)
    (body := fun i m => setWord (setWord m (a + i) (memWord m (a + n / 2 + i))) (a + n / 2 + i)
      (memWord m (a + i)))
    (fun i => memWord m (a + n / 2 + i)) (fun i => memWord m (a + i)) trivial (fun _ _ _ _ => trivial)
    (fun i m' k _ _ hlo hhi => by rw [memWord_setWord, memWord_setWord, hlo, hhi])
  exact h.1 i hi

/-- Settles O15: N is even, so the two halves are the whole buffer. -/
theorem fftshiftResult : Obligations.FftshiftResult := by
  unfold Obligations.FftshiftResult
  refine ⟨encodedAs_of_row rfl (by decide), fun s a => ?_⟩
  obtain ⟨hok, hinit, haddr⟩ := outcomes_of_usesN (i := .fftshift a) (s := s) (fit := s.fits a s.nPoints)
    rfl rfl (by simp [extents])
  refine ⟨fun ⟨_, h⟩ => ?_, hinit, haddr⟩
  refine completesWith_of_check (hok h) rfl ⟨fun i hi => memWord_fftshiftMem _ a s.mem hi, ?_⟩
  exact keepsOutside_extent (.fftshift a) s rfl

/-- Settles O16: the passes of the loop of MAG. -/
theorem magResult : Obligations.MagResult := by
  unfold Obligations.MagResult
  refine ⟨encodedAs_of_row rfl (by decide), fun s a b => ?_⟩
  obtain ⟨hok, hinit, haddr⟩ := outcomes_of_usesN (i := .mag a b) (s := s)
    (fit := s.fits a (2 * s.nPoints) ∧ s.fits b s.nPoints) rfl rfl (by simp [extents])
  refine ⟨fun h => ?_, hinit, haddr⟩
  exact completesWith_of_check (hok h) rfl (passes_loop fun _ _ _ => writesOne_setWord _ _ _)

/-- Settles O17: the passes of the loop of PHASE. -/
theorem phaseResult : Obligations.PhaseResult := by
  unfold Obligations.PhaseResult
  refine ⟨encodedAs_of_row rfl (by decide), fun s a b => ?_⟩
  obtain ⟨hok, hinit, haddr⟩ := outcomes_of_usesN (i := .phase a b) (s := s)
    (fit := s.fits a (2 * s.nPoints) ∧ s.fits b s.nPoints) rfl rfl (by simp [extents])
  refine ⟨fun h => ?_, hinit, haddr⟩
  exact completesWith_of_check (hok h) rfl (passes_loop fun _ _ _ => writesOne_setWord _ _ _)

/-- Settles O18: the passes of the loop of POLAR. -/
theorem polarResult : Obligations.PolarResult := by
  unfold Obligations.PolarResult
  refine ⟨encodedAs_of_row rfl (by decide), fun s a b c => ?_⟩
  obtain ⟨hok, hinit, haddr⟩ := outcomes_of_usesN (i := .polar a b c) (s := s)
    (fit := s.fits a s.nPoints ∧ s.fits b s.nPoints ∧ s.fits c (2 * s.nPoints)) rfl rfl (by simp [extents])
  refine ⟨fun h => ?_, hinit, haddr⟩
  exact completesWith_of_check (hok h) rfl (passes_loop fun _ _ _ => writesTwo_setWord _ _ _ _ _)

end Sys2Proof.Machine
end

/-! PROOF. The bit-reversal indexer (40_fft.md R86). -/

section
namespace Sys2Proof.Machine

theorem bitrev_succ (l i : Nat) : bitrev (l + 1) i = i % 2 * 2 ^ l + bitrev l (i / 2) := rfl

theorem bitrev_lt (l i : Nat) : bitrev l i < 2 ^ l := by
  induction l generalizing i with
  | zero => exact one_pos
  | succ l ih =>
    have h := ih (i / 2)
    rw [bitrev_succ, pow_succ]
    rcases Nat.mod_two_eq_zero_or_one i with hi | hi <;> rw [hi] <;> omega

theorem bitrev_eq_sum (l i : Nat) :
    bitrev l i = ∑ b ∈ Finset.range l, (i / 2 ^ b % 2) * 2 ^ (l - 1 - b) := by
  induction l generalizing i with
  | zero => rfl
  | succ l ih =>
    rw [bitrev_succ, ih, Finset.sum_range_succ', add_comm]
    congr 1
    · refine Finset.sum_congr rfl fun b _ => ?_
      rw [Nat.div_div_eq_div_mul, ← pow_succ', show l + 1 - 1 - (b + 1) = l - 1 - b by omega]
    · simp

/-- Bit `l - 1 - b` of the reversed index is bit `b` of the index. -/
theorem bitrev_bit {l b : Nat} (hb : b < l) (i : Nat) :
    bitrev l i / 2 ^ (l - 1 - b) % 2 = i / 2 ^ b % 2 := by
  induction l generalizing i b with
  | zero => omega
  | succ l ih =>
    rw [bitrev_succ]
    cases b with
    | zero =>
      have h := bitrev_lt l (i / 2)
      rw [Nat.add_sub_cancel, Nat.sub_zero, Nat.mul_comm, Nat.mul_add_div (by positivity), Nat.div_eq_of_lt h]
      simp
    | succ b =>
      have hsplit : i % 2 * 2 ^ l = 2 ^ (l - 1 - b) * (2 * (i % 2 * 2 ^ b)) := by
        have hl : l = (l - 1 - b) + (b + 1) := by omega
        conv_lhs => rw [hl, pow_add, pow_succ]
        ring
      rw [show l + 1 - 1 - (b + 1) = l - 1 - b by omega, hsplit, Nat.mul_add_div (by positivity),
        Nat.mul_add_mod, ih (by omega), Nat.div_div_eq_div_mul, ← pow_succ']

/-- Two indices below `2 ^ l` with the same bits are the same. -/
theorem eq_of_bits {l i j : Nat} (hi : i < 2 ^ l) (hj : j < 2 ^ l)
    (h : ∀ b, b < l → i / 2 ^ b % 2 = j / 2 ^ b % 2) : i = j := by
  refine Nat.eq_of_testBit_eq fun b => ?_
  by_cases hb : b < l
  · simpa [Nat.testBit_eq_decide_div_mod_eq] using congrArg (fun x => decide (x = 1)) (h b hb)
  · have hpow := Nat.pow_le_pow_right (n := 2) (by decide) (not_lt.1 hb)
    rw [Nat.testBit_lt_two_pow (hi.trans_le hpow), Nat.testBit_lt_two_pow (hj.trans_le hpow)]

theorem bitrev_bitrev {l i : Nat} (hi : i < 2 ^ l) : bitrev l (bitrev l i) = i := by
  refine eq_of_bits (bitrev_lt l _) hi fun b hb => ?_
  have hb' : l - 1 - b < l := by omega
  have h := bitrev_bit hb' (bitrev l i)
  rwa [show l - 1 - (l - 1 - b) = b by omega, bitrev_bit hb] at h

/-- Settles O39: reversing the bits twice gives the index back, so the reversal is a bijection. -/
theorem bitReversal : Obligations.BitReversal := by
  unfold Obligations.BitReversal
  refine ⟨fun L i hi => ?_, fun L => ?_, by decide, by decide⟩
  · exact ⟨bitrev_eq_sum L i, bitrev_lt L i, bitrev_bitrev hi, fun b hb => bitrev_bit hb i⟩
  · have hmaps : Set.MapsTo (bitrev L) {i | i < 2 ^ L} {i | i < 2 ^ L} := fun i _ => bitrev_lt L i
    have hinv : Set.LeftInvOn (bitrev L) (bitrev L) {i | i < 2 ^ L} := fun i hi => bitrev_bitrev hi
    exact Set.InvOn.bijOn ⟨hinv, hinv⟩ hmaps hmaps

end Sys2Proof.Machine
end

/-! SUPPORT. The butterfly network in its clear form (40_fft.md R87): what each place of the scratch holds after
a stage, and that the stages after the bit-reversed load leave the decimation-in-time transform, whatever the
scratch held before. -/

section
namespace Sys2Proof.Machine

/-! ### The scratch -/

theorem get_put {n i : Nat} {x : Scratch} (h : x.Sized n) (hi : i < n) (v : Cplx) (k : Nat) :
    (x.put i v).get k = if k = i then v else x.get k := by
  obtain ⟨hr, hm⟩ := h
  by_cases hk : k = i
  · subst hk
    simp [Scratch.get, Scratch.put, hr, hm, hi]
  · simp [Scratch.get, Scratch.put, List.getElem?_set_ne (Ne.symm hk), hk]

theorem sized_butterfly {n : Nat} {x : Scratch} (h : x.Sized n) (w : Cplx) (p q : Nat) :
    (butterfly w p q x).Sized n :=
  sized_put (sized_put h _ _) _ _

theorem get_butterfly {n p q : Nat} {x : Scratch} (h : x.Sized n) (hp : p < n) (hq : q < n) (w : Cplx)
    (k : Nat) : (butterfly w p q x).get k =
      if k = q then csub (x.get p) (cmul w (x.get q))
      else if k = p then cadd (x.get p) (cmul w (x.get q)) else x.get k := by
  rw [butterfly, get_put (sized_put h _ _) hq, get_put h hp]

/-! ### A stage -/

/-- The butterflies of one group, at the `2 * h` places from `base` on. -/
def group (w : Nat → Cplx) (h base : Nat) (x : Scratch) : Scratch :=
  loop h (fun j x => butterfly (w j) (base + j) (base + j + h) x) x

section
variable {n : Nat} {x : Scratch} (hx : x.Sized n) (w : Nat → Cplx)
include hx

theorem sized_group (h base : Nat) : (group w h base x).Sized n :=
  loop_keeps (P := Scratch.Sized n) (fun _ _ _ hx => sized_butterfly hx _ _ _) hx

/-- A group leaves the sums in its first half and the differences in its second, and keeps every other
place. -/
theorem get_group {h base : Nat} (hn : base + h + h ≤ n) :
    (∀ j, j < h →
      (group w h base x).get (base + j) = cadd (x.get (base + j)) (cmul (w j) (x.get (base + h + j))) ∧
      (group w h base x).get (base + h + j) = csub (x.get (base + j)) (cmul (w j) (x.get (base + h + j)))) ∧
    ∀ k, k < base ∨ base + h + h ≤ k → (group w h base x).get k = x.get k := by
  refine loop_two_rows (P := Scratch.Sized n) (read := Scratch.get)
    (fun j => cadd (x.get (base + j)) (cmul (w j) (x.get (base + h + j))))
    (fun j => csub (x.get (base + j)) (cmul (w j) (x.get (base + h + j)))) hx
    (fun _ _ _ hx => sized_butterfly hx _ _ _) fun j x' k hj hx' hlo hhi => ?_
  rw [get_butterfly hx' (by omega) (by omega), Nat.add_right_comm base j h, hlo, hhi]

end

/-- The stage's groups, one after the other. -/
theorem stage_eq (log2nMax l : Nat) (cj : Bool) (st : Nat) (x : Scratch) :
    stage log2nMax l cj st x = loop (2 ^ l / 2 ^ (st + 1)) (fun gi x =>
      group (fun j => twiddle log2nMax l cj (j * (2 ^ l / 2 ^ (st + 1)))) (2 ^ st) (gi * 2 ^ (st + 1)) x) x :=
  rfl

/-- The index of a butterfly's twiddle, in the network of size `2 ^ l` and in the transform of size
`2 ^ (st + 1)`: the same entry of the ROM (R85, R87). -/
theorem twiddle_stage {log2nMax l st : Nat} (hl : l ≤ log2nMax) (hst : st < l) (cj : Bool) (j : Nat) :
    twiddle log2nMax l cj (j * (2 ^ l / 2 ^ (st + 1))) = twiddle log2nMax (st + 1) cj j := by
  have hidx : j * (2 ^ l / 2 ^ (st + 1)) * 2 ^ (log2nMax - l) = j * 2 ^ (log2nMax - (st + 1)) := by
    rw [Nat.pow_div (by omega) (by decide), Nat.mul_assoc, ← pow_add]
    congr 2
    omega
  unfold twiddle wN
  rw [hidx]

theorem sized_stage {n : Nat} {x : Scratch} (hx : x.Sized n) (log2nMax l : Nat) (cj : Bool) (st : Nat) :
    (stage log2nMax l cj st x).Sized n :=
  loop_keeps (P := Scratch.Sized n) (fun _ _ _ hx => sized_group hx _ _ _) hx

/-- A group's places end with what the group makes of the scratch before the stage, since no other group
touches them. -/
theorem get_groups {n m h : Nat} {x : Scratch} (hx : x.Sized n) (hn : m * (h + h) ≤ n) (w : Nat → Cplx)
    {gi : Nat} (hgi : gi < m) {r : Nat} (hr : r < h + h) :
    (loop m (fun gi x => group w h (gi * (h + h)) x) x).get (gi * (h + h) + r) =
      (group w h (gi * (h + h)) x).get (gi * (h + h) + r) := by
  have hpos : 0 < h + h := by omega
  have hown : ∀ i r, r < h + h → (i * (h + h) + r) / (h + h) = i := fun i r hr => by
    rw [Nat.mul_comm, Nat.mul_add_div hpos, Nat.div_eq_of_lt hr, Nat.add_zero]
  rw [loop_read (P := Scratch.Sized n) Scratch.get (fun k => k / (h + h))
    (fun k => (group w h (k / (h + h) * (h + h)) x).get k) hx (fun _ _ _ hx => sized_group hx _ _ _)
    fun i x' k hi hx' hsame => ?_, hown gi r hr, if_pos hgi]
  have hbase : i * (h + h) + (h + h) ≤ n := by
    rw [← Nat.succ_mul]
    exact (Nat.mul_le_mul_right _ hi).trans hn
  obtain ⟨hin, hout⟩ := get_group hx w (h := h) (base := i * (h + h)) (by omega)
  obtain ⟨hin', hout'⟩ := get_group hx' w (h := h) (base := i * (h + h)) (by omega)
  have hdm := Nat.div_add_mod' k (h + h)
  have hmod := Nat.mod_lt k hpos
  split_ifs with hk
  · rw [hk] at hdm ⊢
    have hval : ∀ j, j < h → x'.get (i * (h + h) + j) = x.get (i * (h + h) + j) ∧
        x'.get (i * (h + h) + h + j) = x.get (i * (h + h) + h + j) := fun j hj =>
      ⟨hsame _ (hown i j (by omega)), hsame _ (by rw [Nat.add_assoc]; exact hown i _ (by omega))⟩
    rcases lt_or_ge (k % (h + h)) h with hlo | hhi
    · rw [← hdm, (hin _ hlo).1, (hin' _ hlo).1, (hval _ hlo).1, (hval _ hlo).2]
    · have hj : k % (h + h) - h < h := by omega
      rw [show k = i * (h + h) + h + (k % (h + h) - h) by omega, (hin _ hj).2, (hin' _ hj).2,
        (hval _ hj).1, (hval _ hj).2]
  · refine hout' k ?_
    rcases lt_or_gt_of_ne hk with hlt | hgt
    · have := Nat.mul_le_mul_right (h + h) hlt
      rw [Nat.succ_mul] at this
      omega
    · have := Nat.mul_le_mul_right (h + h) hgt
      rw [Nat.succ_mul] at this
      omega

/-- A stage gives places `j` and `2 ^ st + j` of every group the sum and the difference (R87). -/
theorem get_stage {n log2nMax l st : Nat} {x : Scratch} (hx : x.Sized n) (hn : 2 ^ l ≤ n)
    (hl : l ≤ log2nMax) (hst : st < l) (cj : Bool) {gi j : Nat} (hgi : gi < 2 ^ (l - (st + 1)))
    (hj : j < 2 ^ st) :
    let lo := gi * 2 ^ (st + 1) + j
    let hi := gi * 2 ^ (st + 1) + 2 ^ st + j
    let t := cmul (twiddle log2nMax (st + 1) cj j) (x.get hi)
    (stage log2nMax l cj st x).get lo = cadd (x.get lo) t ∧
    (stage log2nMax l cj st x).get hi = csub (x.get lo) t := by
  have hcount : 2 ^ l / 2 ^ (st + 1) = 2 ^ (l - (st + 1)) := Nat.pow_div (by omega) (by decide)
  have htotal : 2 ^ (l - (st + 1)) * 2 ^ (st + 1) = 2 ^ l := by rw [← pow_add, Nat.sub_add_cancel hst]
  have hdouble : 2 ^ (st + 1) = 2 ^ st + 2 ^ st := by rw [pow_succ, Nat.mul_two]
  have hbase : gi * 2 ^ (st + 1) + 2 ^ (st + 1) ≤ 2 ^ l := by
    rw [← Nat.succ_mul, ← htotal]
    exact Nat.mul_le_mul_right _ hgi
  rw [stage_eq, hcount]
  simp only [← hcount, twiddle_stage hl hst]
  rw [hcount, hdouble]
  rw [hdouble] at htotal hbase
  obtain ⟨hin, -⟩ := get_group hx (fun j => twiddle log2nMax (st + 1) cj j) (h := 2 ^ st)
    (base := gi * (2 ^ st + 2 ^ st)) (by omega)
  rw [← (hin j hj).1, ← (hin j hj).2, Nat.add_assoc _ (2 ^ st) j]
  exact ⟨get_groups hx (by omega) _ hgi (by omega), get_groups hx (by omega) _ hgi (by omega)⟩

/-! ### The network is the recursive transform -/

/-- The samples whose transform block `gi` holds after `st` stages: every `2 ^ (l - st)`-th one, from the
reversed block number on (R86, R87). -/
def blockInput (z : Nat → Cplx) (l st gi i : Nat) : Cplx := z (bitrev (l - st) gi + i * 2 ^ (l - st))

section
variable {l st : Nat} (hst : st < l) (z : Nat → Cplx) (gi : Nat)
include hst

/-- The even samples of a block are those of the first of the two blocks it is made of. -/
theorem blockInput_even : blockInput z l st (2 * gi) = fun i => blockInput z l (st + 1) gi (2 * i) := by
  funext i
  rw [blockInput, blockInput, show l - st = (l - (st + 1)) + 1 by omega, bitrev_succ]
  congr 1
  rw [Nat.mul_mod_right, Nat.mul_div_cancel_left gi two_pos, pow_succ]
  ring

/-- The odd samples of a block are those of the second of the two blocks it is made of. -/
theorem blockInput_odd : blockInput z l st (2 * gi + 1) = fun i => blockInput z l (st + 1) gi (2 * i + 1) := by
  funext i
  rw [blockInput, blockInput, show l - st = (l - (st + 1)) + 1 by omega, bitrev_succ]
  congr 1
  rw [show (2 * gi + 1) % 2 = 1 by omega, show (2 * gi + 1) / 2 = gi by omega, pow_succ]
  ring

end

/-- The stages of the network on a scratch loaded in bit-reversed order: after `st` of them each block of
`2 ^ st` places holds the transform of its samples. -/
theorem get_stages {n log2nMax l : Nat} {x : Scratch} {z : Nat → Cplx} (hx : x.Sized n) (hn : 2 ^ l ≤ n)
    (hl : l ≤ log2nMax) (cj : Bool) (hload : ∀ i, i < 2 ^ l → x.get i = z (bitrev l i)) {st : Nat}
    (hst : st ≤ l) {gi k : Nat} (hgi : gi < 2 ^ (l - st)) (hk : k < 2 ^ st) :
    (loop st (stage log2nMax l cj) x).get (gi * 2 ^ st + k) =
      ditTransform log2nMax cj st (blockInput z l st gi) k := by
  induction st generalizing gi k with
  | zero =>
    obtain rfl : k = 0 := by omega
    simpa [blockInput, ditTransform] using hload gi hgi
  | succ st ih =>
    have hsized : (loop st (stage log2nMax l cj) x).Sized n :=
      loop_keeps (P := Scratch.Sized n) (fun _ _ _ hx => sized_stage hx _ _ _ _) hx
    have hhalf : 2 ^ (l - st) = 2 * 2 ^ (l - (st + 1)) := by
      rw [← pow_succ']
      congr 1
      omega
    have heven : ∀ j, j < 2 ^ st → _ := fun j hj => ih (by omega) (gi := 2 * gi) (k := j) (by omega) hj
    have hodd : ∀ j, j < 2 ^ st → _ := fun j hj => ih (by omega) (gi := 2 * gi + 1) (k := j) (by omega) hj
    have hlo : ∀ j, gi * 2 ^ (st + 1) + j = 2 * gi * 2 ^ st + j := fun j => by rw [pow_succ]; ring
    have hhi : ∀ j, gi * 2 ^ (st + 1) + 2 ^ st + j = (2 * gi + 1) * 2 ^ st + j := fun j => by
      rw [pow_succ]; ring
    have hstage := fun j hj => get_stage hsized hn hl (by omega : st < l) cj hgi (j := j) hj
    simp only [hhi] at hstage
    simp only [hlo] at hstage
    rw [loop_succ, ditTransform, ← blockInput_even (by omega), ← blockInput_odd (by omega)]
    rw [pow_succ] at hk
    split_ifs with hj
    · rw [hlo, (hstage k hj).1, heven k hj, hodd k hj]
    · have hj' : k - 2 ^ st < 2 ^ st := by omega
      have hk' : gi * 2 ^ (st + 1) + k = (2 * gi + 1) * 2 ^ st + (k - 2 ^ st) := by
        rw [← hhi]
        omega
      rw [hk', (hstage _ hj').2, heven _ hj', hodd _ hj']

/-- The network's result on a scratch loaded in bit-reversed order (R87). -/
theorem get_butterflies {n log2nMax l : Nat} {x : Scratch} {z : Nat → Cplx} (hx : x.Sized n)
    (hn : 2 ^ l ≤ n) (hl : l ≤ log2nMax) (cj : Bool) (hload : ∀ i, i < 2 ^ l → x.get i = z (bitrev l i))
    {k : Nat} (hk : k < 2 ^ l) : (butterflies log2nMax l cj x).get k = ditTransform log2nMax cj l z k := by
  have h := get_stages hx hn hl cj hload le_rfl (gi := 0) (by simp) hk
  rw [Nat.zero_mul, Nat.zero_add] at h
  rw [butterflies, h]
  congr 1
  funext i
  simp [blockInput, bitrev]

end Sys2Proof.Machine
end

/-! PROOF. The forward and the inverse transform (40_fft.md R89, R90): the load in bit-reversed order, the
network, and the store. -/

section
namespace Sys2Proof.Machine

/-! ### The loads -/

section
variable {n l : Nat} {x : Scratch} (hx : x.Sized n) (hn : 2 ^ l ≤ n) (a : Nat) (m : Mem)
include hx

theorem sized_loadReal : (loadReal l a m x).Sized n :=
  loop_keeps (P := Scratch.Sized n) (fun _ _ _ hx => sized_put hx _ _) hx

theorem sized_loadSpectrum : (loadSpectrum l a m x).Sized n :=
  loop_keeps (P := Scratch.Sized n) (fun _ _ _ hx => sized_put hx _ _) hx

include hn

/-- A loop that puts a value at each of the first `2 ^ l` places of the scratch. -/
theorem get_loop_put (v : Nat → Cplx) {i : Nat} (hi : i < 2 ^ l) :
    (loop (2 ^ l) (fun i x => x.put i (v i)) x).get i = v i := by
  have h := loop_row (P := Scratch.Sized n) (read := Scratch.get) (base := 0) v hx
    (fun _ _ _ hx => sized_put hx _ _)
    (fun i x k hi hx => by rw [Nat.zero_add, get_put hx (hi.trans_le hn)]) hi
  rwa [Nat.zero_add] at h

theorem get_loadReal {i : Nat} (hi : i < 2 ^ l) :
    (loadReal l a m x).get i = ⟨memWord m (a + bitrev l i), fZERO⟩ := get_loop_put hx hn _ hi

theorem get_loadSpectrum {i : Nat} (hi : i < 2 ^ l) :
    (loadSpectrum l a m x).get i =
      ⟨memWord m (a + bitrev l i), memWord m (a + 2 ^ l + bitrev l i)⟩ := get_loop_put hx hn _ hi

end

/-! ### The stores -/

theorem memWord_storeSpectrum (l b : Nat) (x : Scratch) (m : Mem) {k : Nat} (hk : k < 2 ^ l) :
    memWord (storeSpectrum l b x m) (b + k) = (x.get k).re ∧
    memWord (storeSpectrum l b x m) (b + 2 ^ l + k) = (x.get k).im :=
  (loop_two_rows (P := fun _ => True) (read := memWord) (fun k => (x.get k).re) (fun k => (x.get k).im)
    trivial (fun _ _ _ _ => trivial)
    (fun _ _ _ _ _ _ _ => by rw [zWrite, memWord_setWord, memWord_setWord])).1 k hk

theorem memWord_storeReal (l b : Nat) (x : Scratch) (m : Mem) {k : Nat} (hk : k < 2 ^ l) :
    memWord (storeReal l b x m) (b + k) = fdiv (x.get k).re (f32OfNat (2 ^ l)) :=
  loop_row (P := fun _ => True) (read := memWord) (fun k => fdiv (x.get k).re (f32OfNat (2 ^ l)))
    trivial (fun _ _ _ _ => trivial) (fun _ _ _ _ _ => memWord_setWord _ _ _ _) hk

/-! ### The size -/

/-- With INIT done the invariant bounds the size of the transform by NMAX, the size of the scratch. -/
theorem size_of_ok {s : State} (hok : s.ok = true) (hinit : s.initDone = true) :
    s.hw.legal = true ∧ 1 ≤ s.log2n.toNat ∧ s.log2n.toNat ≤ s.hw.log2nMax ∧
    s.scratch.Sized s.hw.nMax ∧ 2 ^ s.log2n.toNat ≤ s.hw.nMax := by
  obtain ⟨hlegal, -, -, -, hsize, hscratch⟩ := (ok_iff s).1 hok
  simp only [State.sizeOk, hinit, if_true, Bool.and_eq_true, decide_eq_true_eq] at hsize
  obtain ⟨hlo, hhi⟩ := hsize
  exact ⟨hlegal, hlo, hhi, (scratchOk_iff s).1 hscratch, Nat.pow_le_pow_right two_pos hhi⟩

/-- Every power of two up to 8192 is a binary32 value (R90). -/
theorem f32OfNat_two_pow {l : Nat} (hl : l ≤ 13) :
    isFin (f32OfNat (2 ^ l)) = true ∧ valueOf (f32OfNat (2 ^ l)) = ((2 ^ l : Nat) : ℚ) := by
  have hmag : magOfBits ((126 + l) * 2 ^ 23 + 2 ^ 23) = 2 ^ l * 2 ^ 149 := by
    rw [magOfBits_packed (by decide) (.inr le_rfl), ← pow_add, ← pow_add]
    congr 1
    omega
  have heq : f32OfNat (2 ^ l) = pack false ((126 + l) * 2 ^ 23 + 2 ^ 23) := by
    rw [f32OfNat, f32OfRatio, ← hmag, roundMag_exact (by omega)]
  rw [heq, isFin_pack (by omega), valueOf, fixedOf_pack (by omega), hmag]
  exact ⟨decide_eq_true (by omega), by norm_num [signFactor]⟩

/-! ### The obligations about the transforms -/

/-- Settles O13: the store of the network's result on the bit-reversed load. -/
theorem fftFwdResult : Obligations.FftFwdResult := by
  unfold Obligations.FftFwdResult
  refine ⟨encodedAs_of_row rfl (by decide), fun s a b => ?_⟩
  obtain ⟨hcheck, hinit, haddr⟩ := outcomes_of_usesN (i := .fftFwd a b) (s := s)
    (fit := s.fits a s.nPoints ∧ s.fits b (2 * s.nPoints)) rfl rfl (by simp [extents])
  refine ⟨fun ⟨hok, hdone, hfit⟩ => ?_, hinit, haddr⟩
  obtain ⟨-, -, hmax, hsized, hn⟩ := size_of_ok hok hdone
  refine ⟨_, _, finishes_of_check (hcheck ⟨hdone, hfit⟩) rfl, fun k hk => ?_,
    keepsOutside_extent (.fftFwd a b) s rfl⟩
  rw [← get_butterflies (sized_loadReal hsized a s.mem) hn hmax false
    (fun i hi => get_loadReal hsized hn a s.mem hi) hk]
  exact memWord_storeSpectrum _ b _ s.mem hk

/-- Settles O14: as for the forward transform, with the conjugated twiddles and one division by N. -/
theorem fftInvResult : Obligations.FftInvResult := by
  unfold Obligations.FftInvResult
  refine ⟨encodedAs_of_row rfl (by decide), fun s a b => ?_⟩
  obtain ⟨hcheck, hinit, haddr⟩ := outcomes_of_usesN (i := .fftInv a b) (s := s)
    (fit := s.fits a (2 * s.nPoints) ∧ s.fits b s.nPoints) rfl rfl (by simp [extents])
  refine ⟨fun ⟨hok, hdone, hfit⟩ => ?_, hinit, haddr⟩
  obtain ⟨hlegal, -, hmax, hsized, hn⟩ := size_of_ok hok hdone
  obtain ⟨-, hmax13, -⟩ := (legal_iff s.hw).1 hlegal
  obtain ⟨hfin, hval⟩ := f32OfNat_two_pow (hmax.trans hmax13)
  refine ⟨_, _, f32OfNat (2 ^ s.log2n.toNat), finishes_of_check (hcheck ⟨hdone, hfit⟩) rfl, hfin, hval,
    fun k hk => ?_, keepsOutside_extent (.fftInv a b) s rfl⟩
  rw [← get_butterflies (sized_loadSpectrum hsized a s.mem) hn hmax true
    (fun i hi => get_loadSpectrum hsized hn a s.mem hi) hk]
  exact memWord_storeReal _ b _ s.mem hk

end Sys2Proof.Machine
end

/-! SUPPORT. The quarter wave of the twiddle ROM (40_fft.md R84). The powers of `exp (i π / 4096)` are followed in
fixed point, with 64 bits below the point and a bound on the error, and the table's entries are compared with
the bounds this gives on the cosines. -/

section
namespace Sys2Proof.Machine

/-! ### Fixed-point rotation -/

/-- The angle between two entries of the quarter wave, `2 π / 8192`. -/
noncomputable def quarterStep : ℝ := Real.pi / 4096

/-- The complex number whose parts are given in units of 2^-64. -/
noncomputable def fixedPoint (x y : Int) : ℂ := ⟨x / 2 ^ 64, y / 2 ^ 64⟩

/-- `(x, y)` is the point at `j` steps on the unit circle, in units of 2^-64, up to the error `e`. -/
def Tracks (j : Nat) (x y : Int) (e : Nat) : Prop :=
  ‖fixedPoint x y - Complex.exp (quarterStep * Complex.I) ^ j‖ ≤ e / 2 ^ 64

theorem tracks_zero : Tracks 0 (2 ^ 64) 0 0 := by
  have h : fixedPoint (2 ^ 64) 0 = 1 := by apply Complex.ext <;> norm_num [fixedPoint]
  rw [Tracks, h]
  simp

/-- The real part of the rotation by one step, rounded down. -/
def stepRe : Int := 18446738647837417334

/-- The imaginary part of the rotation by one step, rounded down. -/
def stepIm : Int := 14148474116859584

theorem norm_fixedPoint_step_le : ‖fixedPoint stepRe stepIm‖ ≤ 1 := by
  rw [fixedPoint, Complex.norm_def, Complex.normSq_mk, Real.sqrt_le_one]
  norm_num [stepRe, stepIm]

/-- The step's angle, to 20 decimals of `π`. -/
noncomputable def stepAngle : ℝ := 3.14159265358979323846 / 4096

theorem abs_stepAngle_sub_le : |stepAngle - quarterStep| ≤ 1 / 2 ^ 64 := by
  have hlo := Real.pi_gt_d20
  have hhi := Real.pi_lt_d20
  rw [stepAngle, quarterStep, abs_le]
  constructor <;> norm_num at * <;> linarith

/-- The first six terms of the exponential series at `t i`, by real and imaginary part. -/
noncomputable def expPolynomial (t : ℝ) : ℂ := ⟨1 - t ^ 2 / 2 + t ^ 4 / 24, t - t ^ 3 / 6 + t ^ 5 / 120⟩

theorem sum_exp_series (t : ℝ) :
    ∑ m ∈ Finset.range 6, ((t : ℂ) * Complex.I) ^ m / m.factorial = expPolynomial t := by
  have hparts : expPolynomial t =
      (1 - t ^ 2 / 2 + t ^ 4 / 24) + (t - t ^ 3 / 6 + t ^ 5 / 120) * Complex.I := by
    apply Complex.ext <;> simp [expPolynomial, ← Complex.ofReal_pow]
  rw [hparts]
  simp only [Finset.sum_range_succ, Finset.sum_range_zero, mul_pow, Complex.I_sq, Complex.I_pow_four,
    Complex.I_pow_three, pow_succ Complex.I 4, Nat.factorial]
  push_cast
  ring

/-- The rotation by one step, from the first terms of the exponential series. -/
theorem norm_step_sub_exp_stepAngle_le :
    ‖fixedPoint stepRe stepIm - Complex.exp (stepAngle * Complex.I)‖ ≤ 4 / 2 ^ 64 := by
  have hnorm : ‖(stepAngle : ℂ) * Complex.I‖ = stepAngle := by
    rw [norm_mul, Complex.norm_I, mul_one, Complex.norm_real, Real.norm_of_nonneg (by norm_num [stepAngle])]
  have hseries := Complex.exp_bound (x := stepAngle * Complex.I) (n := 6)
    (by rw [hnorm]; norm_num [stepAngle]) (by decide)
  rw [hnorm, sum_exp_series, norm_sub_rev] at hseries
  have hpoly : ‖fixedPoint stepRe stepIm - expPolynomial stepAngle‖ ≤ 3 / 2 ^ 64 := by
    refine (Complex.norm_le_abs_re_add_abs_im _).trans ?_
    norm_num [fixedPoint, expPolynomial, stepRe, stepIm, stepAngle, abs_of_nonneg, abs_of_nonpos]
  refine (norm_sub_le_norm_sub_add_norm_sub _ _ _).trans ((add_le_add hpoly hseries).trans ?_)
  norm_num [stepAngle, Nat.factorial]

theorem tracks_step : Tracks 1 stepRe stepIm 5 := by
  have hrot : ‖Complex.exp (stepAngle * Complex.I) - Complex.exp (quarterStep * Complex.I)‖ ≤ 1 / 2 ^ 64 := by
    have hfactor : Complex.exp (stepAngle * Complex.I) - Complex.exp (quarterStep * Complex.I) =
        Complex.exp (quarterStep * Complex.I) *
          (Complex.exp (Complex.I * (stepAngle - quarterStep : ℝ)) - 1) := by
      rw [mul_sub, mul_one, ← Complex.exp_add]
      push_cast
      ring_nf
    rw [hfactor, norm_mul, Complex.norm_exp_ofReal_mul_I, one_mul]
    exact Real.norm_exp_I_mul_ofReal_sub_one_le.trans abs_stepAngle_sub_le
  rw [Tracks, pow_one]
  refine (norm_sub_le_norm_sub_add_norm_sub _ _ _).trans
    ((add_le_add norm_step_sub_exp_stepAngle_le hrot).trans ?_)
  norm_num

/-- Rotating in fixed point, with the parts rounded down, is within 2 units of the product. -/
theorem norm_rotate_sub_mul_le (x y x' y' : Int) :
    ‖fixedPoint ((x * x' - y * y') / 2 ^ 64) ((x * y' + y * x') / 2 ^ 64) -
      fixedPoint x y * fixedPoint x' y'‖ ≤ 2 / 2 ^ 64 := by
  have hpart : ∀ v : Int, |((v / 2 ^ 64 : Int) : ℝ) / 2 ^ 64 - v / 2 ^ 128| ≤ 1 / 2 ^ 64 := fun v => by
    have hlo := Int.mul_ediv_self_le (x := v) (k := 2 ^ 64) (by decide)
    have hhi := Int.lt_mul_ediv_self_add (x := v) (k := 2 ^ 64) (by decide)
    have hlo' : (2 ^ 64 : ℝ) * ((v / 2 ^ 64 : Int) : ℝ) ≤ v := by exact_mod_cast hlo
    have hhi' : (v : ℝ) < 2 ^ 64 * ((v / 2 ^ 64 : Int) : ℝ) + 2 ^ 64 := by exact_mod_cast hhi
    rw [abs_le]
    constructor <;> linarith
  have hre := hpart (x * x' - y * y')
  have him := hpart (x * y' + y * x')
  refine (Complex.norm_le_abs_re_add_abs_im _).trans ?_
  have hr : (fixedPoint x y * fixedPoint x' y').re = ((x * x' - y * y' : Int) : ℝ) / 2 ^ 128 := by
    simp only [fixedPoint, Complex.mul_re]
    push_cast
    ring
  have hi : (fixedPoint x y * fixedPoint x' y').im = ((x * y' + y * x' : Int) : ℝ) / 2 ^ 128 := by
    simp only [fixedPoint, Complex.mul_im]
    push_cast
    ring
  rw [Complex.sub_re, Complex.sub_im, hr, hi]
  exact (add_le_add hre him).trans (by norm_num)

/-- One step more, with the errors of the point, of the step and of the rounding added up. -/
theorem Tracks.succ {j : Nat} {x y : Int} {e : Nat} (h : Tracks j x y e) :
    Tracks (j + 1) ((x * stepRe - y * stepIm) / 2 ^ 64) ((x * stepIm + y * stepRe) / 2 ^ 64) (e + 7) := by
  have hstep := tracks_step
  have hround := norm_rotate_sub_mul_le x y stepRe stepIm
  have hlen := norm_fixedPoint_step_le
  have hunit : ‖Complex.exp (quarterStep * Complex.I)‖ = 1 := Complex.norm_exp_ofReal_mul_I _
  unfold Tracks at *
  generalize fixedPoint ((x * stepRe - y * stepIm) / 2 ^ 64) ((x * stepIm + y * stepRe) / 2 ^ 64) = z',
    fixedPoint x y = z, fixedPoint stepRe stepIm = u, Complex.exp (quarterStep * Complex.I) = ω at *
  have hsplit : z' - ω ^ (j + 1) = (z' - z * u) + (z - ω ^ j) * u + ω ^ j * (u - ω ^ 1) := by ring
  calc ‖z' - ω ^ (j + 1)‖
      ≤ ‖z' - z * u‖ + ‖z - ω ^ j‖ * ‖u‖ + ‖u - ω ^ 1‖ := by
        rw [hsplit]
        refine norm_add₃_le.trans_eq ?_
        rw [norm_mul, norm_mul, norm_pow, hunit, one_pow, one_mul]
    _ ≤ 2 / 2 ^ 64 + e / 2 ^ 64 * 1 + (5 : Nat) / 2 ^ 64 := by gcongr
    _ = (e + 7 : Nat) / 2 ^ 64 := by push_cast; ring

theorem Tracks.re {j : Nat} {x y : Int} {e : Nat} (h : Tracks j x y e) :
    |(x : ℝ) / 2 ^ 64 - Real.cos (j * quarterStep)| ≤ (e : ℝ) / 2 ^ 64 := by
  have hpow : Complex.exp (quarterStep * Complex.I) ^ j =
      Complex.exp ((j * quarterStep : ℝ) * Complex.I) := by
    rw [← Complex.exp_nat_mul]
    push_cast
    ring_nf
  have hre := (Complex.abs_re_le_norm _).trans h
  rwa [hpow, Complex.sub_re, Complex.exp_ofReal_mul_I_re] at hre

/-! ### The table against the bounds -/

/-- The entries of `bs` are magnitude bits whose midpoints with their neighbours enclose the tracked cosines,
from `(x, y)` with the error `e` on. -/
def enclosed : List Nat → (x y : Int) → (e : Nat) → Bool
  | [], _, _, _ => true
  | b :: bs, x, y, e =>
    decide (0 < b) && decide (b < 0x7F800000) &&
    decide ((magOfBits (b - 1) + magOfBits b) * 2 ^ 64 + e * 2 ^ 150 < x.toNat * 2 ^ 150) &&
    decide ((x.toNat + e) * 2 ^ 150 < (magOfBits b + magOfBits (b + 1)) * 2 ^ 64) &&
    enclosed bs ((x * stepRe - y * stepIm) / 2 ^ 64) ((x * stepIm + y * stepRe) / 2 ^ 64) (e + 7)

/-- Every entry but the last, which is the exact zero. -/
theorem enclosed_quarterCos : enclosed (quarterCos.take 2048) (2 ^ 64) 0 0 = true := by
  decide +kernel

/-- Magnitude bits whose midpoints with both neighbours enclose a magnitude are the nearest, and no tie. -/
theorem nearestMag_of_midpoints {t : ℝ} {b : Nat} (hb : 0 < b)
    (hlo : (magOfBits (b - 1) + magOfBits b : ℝ) < 2 * t)
    (hhi : 2 * t < (magOfBits b + magOfBits (b + 1) : ℝ)) : NearestMag t b := by
  rcases le_total (magOfBits b : ℝ) t with h | h
  · exact nearestMag_lower h hhi.le fun heq => absurd heq hhi.ne
  · obtain ⟨b, rfl⟩ := Nat.exists_eq_add_one_of_ne_zero hb.ne'
    exact nearestMag_upper h hlo.le fun heq => absurd heq hlo.ne'

/-- The entries of an enclosed list are the magnitude bits nearest to the cosines, in the table's order. -/
theorem enclosed_nearest {bs : List Nat} {j e : Nat} {x y : Int} (ht : Tracks j x y e)
    (h : enclosed bs x y e = true) {i : Nat} (hi : i < bs.length) :
    0 < bs[i] ∧ bs[i] < 0x7F800000 ∧
      NearestMag (Real.cos ((j + i : Nat) * quarterStep) * 2 ^ 149) bs[i] := by
  induction bs generalizing j x y e i with
  | nil => exact absurd hi (Nat.not_lt_zero i)
  | cons b bs ih =>
    simp only [enclosed, Bool.and_eq_true, decide_eq_true_eq] at h
    obtain ⟨⟨⟨⟨hpos, hfin⟩, hlo⟩, hhi⟩, hrest⟩ := h
    cases i with
    | zero =>
      simp only [List.getElem_cons_zero, Nat.add_zero]
      have hx : ((x.toNat : Nat) : ℝ) = x := by
        have hx : ((x.toNat : Nat) : Int) = x := by omega
        exact_mod_cast hx
      have hlo' : ((magOfBits (b - 1) : ℝ) + magOfBits b) * 2 ^ 64 + e * 2 ^ 150 < x * 2 ^ 150 := by
        rw [← hx]
        exact_mod_cast hlo
      have hhi' : ((x : ℝ) + e) * 2 ^ 150 < (magOfBits b + magOfBits (b + 1)) * 2 ^ 64 := by
        rw [← hx]
        exact_mod_cast hhi
      obtain ⟨hnear, hnear'⟩ := abs_le.1 ht.re
      exact ⟨hpos, hfin, nearestMag_of_midpoints hpos (by linarith) (by linarith)⟩
    | succ i =>
      rw [List.getElem_cons_succ, ← Nat.succ_add_eq_add_succ]
      exact ih ht.succ hrest (Nat.lt_of_succ_lt_succ hi)

end Sys2Proof.Machine
end

/-! SUPPORT. The twiddle ROM from its quarter wave (40_fft.md R84, R85, R87): the mirror images, and the twiddles
of every size. -/

section
namespace Sys2Proof.Machine

/-! ### The quarter wave -/

theorem pack_of_flipUnlessZero {b : Nat} (hpos : 0 < b) (hb : b < 0x7F800000) :
    flipUnlessZero (pack false b) = pack true b := by
  have hne : pack false b ≠ 0#32 := fun h => by
    have h' := congrArg isZero h
    rw [isZero_pack (by omega), decide_eq_false (by omega)] at h'
    exact absurd h' (by decide)
  rw [flipUnlessZero, if_neg hne]
  exact fneg_pack (by omega)

/-- Every entry of the quarter wave but the last is positive and holds the magnitude bits nearest to the cosine. -/
theorem quarterCosAt_nearest {j : Nat} (hj : j < 2048) : ∃ b, 0 < b ∧ b < 0x7F800000 ∧
    quarterCosAt j = pack false b ∧ NearestMag (Real.cos (j * quarterStep) * 2 ^ 149) b := by
  have hlen : quarterCos.length = 2049 := by decide +kernel
  have hi : j < (quarterCos.take 2048).length := by rw [List.length_take, hlen]; omega
  obtain ⟨hpos, hfin, hnear⟩ := enclosed_nearest tracks_zero enclosed_quarterCos hi
  rw [Nat.zero_add] at hnear
  refine ⟨_, hpos, hfin, ?_, hnear⟩
  rw [quarterCosAt, List.getElem_take, List.getD_eq_getElem _ _ (by omega)]
  rfl

theorem quarterCosAt_last : quarterCosAt 2048 = pack false 0 := by decide +kernel

theorem cos_last : Real.cos ((2048 : Nat) * quarterStep) = 0 := by
  rw [quarterStep, show ((2048 : Nat) : ℝ) * (Real.pi / 4096) = Real.pi / 2 by push_cast; ring,
    Real.cos_pi_div_two]

/-- Every entry of the quarter wave is the rounded cosine, and flipped, zero apart, the rounded negated one. -/
theorem nearestEven_quarterCosAt {j : Nat} (hj : j ≤ 2048) :
    NearestEven (Real.cos (j * quarterStep)) (quarterCosAt j) ∧
    NearestEven (-Real.cos (j * quarterStep)) (flipUnlessZero (quarterCosAt j)) := by
  rcases Nat.lt_or_eq_of_le hj with hlt | rfl
  · obtain ⟨b, hpos, hfin, heq, hnear⟩ := quarterCosAt_nearest hlt
    have hpi := Real.pi_pos
    have hle : (j : ℝ) * quarterStep ≤ Real.pi / 2 := by
      have hj' : (j : ℝ) ≤ 2048 := by exact_mod_cast hj
      rw [quarterStep]
      nlinarith
    have hcos : 0 ≤ Real.cos (j * quarterStep) := by
      refine Real.cos_nonneg_of_neg_pi_div_two_le_of_le ?_ hle
      have : 0 ≤ (j : ℝ) * quarterStep := by unfold quarterStep; positivity
      linarith
    have h := hnear.nearestEven (by positivity) hfin
    rw [heq, pack_of_flipUnlessZero hpos hfin]
    constructor
    · simpa [signFactor] using h false
    · simpa [signFactor, neg_div] using h true
  · have h := (roundsTo_zero false).1 (by norm_num)
    rw [cos_last, quarterCosAt_last, neg_zero]
    exact ⟨h, h⟩

/-! ### The half wave (R84) -/

theorem nearestEven_cosAt {j : Nat} (hj : j ≤ 4096) :
    NearestEven (Real.cos (j * quarterStep)) (cosAt j) := by
  unfold cosAt
  split_ifs with h
  · exact (nearestEven_quarterCosAt h).1
  · have hcos := (nearestEven_quarterCosAt (j := 4096 - j) (by omega)).2
    rwa [Nat.cast_sub hj, sub_mul, ← Real.cos_pi_sub, quarterStep,
      show Real.pi - ((4096 : Nat) * (Real.pi / 4096) - j * (Real.pi / 4096)) = j * (Real.pi / 4096) by
        push_cast; ring] at hcos

theorem nearestEven_negSinAt {j : Nat} (hj : j ≤ 4096) :
    NearestEven (-Real.sin (j * quarterStep)) (negSinAt j) := by
  unfold negSinAt
  split_ifs with h
  · have hcos := (nearestEven_quarterCosAt (j := 2048 - j) (by omega)).2
    rwa [Nat.cast_sub h, sub_mul, quarterStep,
      show (2048 : Nat) * (Real.pi / 4096) - j * (Real.pi / 4096) = Real.pi / 2 - j * (Real.pi / 4096) by
        push_cast; ring, Real.cos_pi_div_two_sub] at hcos
  · have hcos := (nearestEven_quarterCosAt (j := j - 2048) (by omega)).2
    rwa [Nat.cast_sub (by omega), sub_mul, quarterStep,
      show j * (Real.pi / 4096) - (2048 : Nat) * (Real.pi / 4096) = j * (Real.pi / 4096) - Real.pi / 2 by
        push_cast; ring, Real.cos_sub_pi_div_two] at hcos

/-! ### The ROM and the twiddles (R84, R85, R87) -/

/-- The angle of entry `j` of the ROM for LOG2N_MAX = `L`, in steps of the quarter wave (R84). -/
theorem rom_angle {L : Nat} (hL : L ≤ 13) (j : Nat) :
    2 * Real.pi * j / 2 ^ L = (j * 2 ^ (13 - L) : Nat) * quarterStep := by
  have hpow : (2 : ℝ) ^ L * 2 ^ (13 - L) = 8192 := by
    rw [← pow_add, Nat.add_sub_cancel' hL]
    norm_num
  rw [quarterStep, div_eq_iff (by positivity)]
  push_cast
  linear_combination (-(Real.pi * j) / 4096) * hpow

theorem halfWave_index_le {L j : Nat} (hL : 1 ≤ L) (hL' : L ≤ 13) (hj : j < 2 ^ (L - 1)) :
    j * 2 ^ (13 - L) ≤ 4096 := by
  calc j * 2 ^ (13 - L) ≤ 2 ^ (L - 1) * 2 ^ (13 - L) := Nat.mul_le_mul_right _ hj.le
    _ = 2 ^ 12 := by rw [← pow_add]; congr 1; omega
    _ = 4096 := by norm_num

section
variable {L j : Nat} (hL : 1 ≤ L) (hL' : L ≤ 13) (hj : j < 2 ^ (L - 1))
include hL hL' hj

theorem nearestEven_twr : NearestEven (Real.cos (2 * Real.pi * j / 2 ^ L)) (twr L j) :=
  rom_angle hL' j ▸ nearestEven_cosAt (halfWave_index_le hL hL' hj)

theorem nearestEven_twi : NearestEven (-Real.sin (2 * Real.pi * j / 2 ^ L)) (twi L j) :=
  rom_angle hL' j ▸ nearestEven_negSinAt (halfWave_index_le hL hL' hj)

end

/-- Each of the two exact zeros of the ROM is the last entry of the quarter wave (R84). -/
theorem twi_zero (L : Nat) : twi L 0 = 0x00000000#32 := by
  have h : negSinAt 0 = 0x00000000#32 := by rw [negSinAt, if_pos (by decide), quarterCosAt_last]; rfl
  rwa [twi, Nat.zero_mul]

theorem twr_quarter {L : Nat} (hL : 2 ≤ L) (hL' : L ≤ 13) : twr L (2 ^ (L - 2)) = 0x00000000#32 := by
  have h : 2 ^ (L - 2) * 2 ^ (13 - L) = 2048 := by
    rw [← pow_add, show L - 2 + (13 - L) = 11 by omega]
    rfl
  rw [twr, h, cosAt, if_pos le_rfl, quarterCosAt_last]
  rfl

/-- The twiddle of index `k` for `N = 2 ^ l` stands in the ROM where its angle does (R85). -/
theorem rom_index_lt {L l k : Nat} (hl : 1 ≤ l) (hlL : l ≤ L) (hk : k < 2 ^ (l - 1)) :
    k * 2 ^ (L - l) < 2 ^ (L - 1) := by
  calc k * 2 ^ (L - l) < 2 ^ (l - 1) * 2 ^ (L - l) := Nat.mul_lt_mul_of_pos_right hk (by positivity)
    _ = 2 ^ (L - 1) := by rw [← pow_add]; congr 1; omega

theorem rom_index_angle {L l : Nat} (hlL : l ≤ L) (k : Nat) :
    2 * Real.pi * (k * 2 ^ (L - l) : Nat) / 2 ^ L = 2 * Real.pi * k / 2 ^ l := by
  have hpow : (2 : ℝ) ^ L = 2 ^ l * 2 ^ (L - l) := by rw [← pow_add, Nat.add_sub_cancel' hlL]
  rw [hpow, Nat.cast_mul, Nat.cast_pow, Nat.cast_ofNat, ← mul_assoc, mul_div_mul_right _ _ (by positivity)]

/-- The index of the twiddle a quarter of the circle on. -/
theorem quarter_index {l k : Nat} (hl : 1 ≤ l) (h : 4 * k = 2 ^ l) : 2 ≤ l ∧ k = 2 ^ (l - 2) := by
  match l with
  | 1 => omega
  | l + 2 =>
    rw [pow_add] at h
    exact ⟨by omega, by rw [Nat.add_sub_cancel]; omega⟩

theorem twiddle_false (L l k : Nat) :
    twiddle L l false k = ⟨twr L (k * 2 ^ (L - l)), twi L (k * 2 ^ (L - l))⟩ := rfl

/-- The forward twiddles are the rounded cosines and negated sines of their own size (R85). -/
theorem nearestEven_twiddle {L l k : Nat} (hL : L ≤ 13) (hl : 1 ≤ l) (hlL : l ≤ L) (hk : k < 2 ^ (l - 1)) :
    NearestEven (Real.cos (2 * Real.pi * k / 2 ^ l)) (twiddle L l false k).re ∧
    NearestEven (-Real.sin (2 * Real.pi * k / 2 ^ l)) (twiddle L l false k).im := by
  rw [← rom_index_angle hlL]
  have hj := rom_index_lt hl hlL hk
  exact ⟨nearestEven_twr (hl.trans hlL) hL hj, nearestEven_twi (hl.trans hlL) hL hj⟩

end Sys2Proof.Machine
end

/-! PROOF. The twiddle ROM and the twiddles of every size (40_fft.md R84, R85, R87). -/

section
namespace Sys2Proof.Machine

/-- Settles O38: every entry is a mirror image of one of the quarter wave, and those were compared with bounds
on the cosines. -/
theorem twiddleRomRounded : Obligations.TwiddleRomRounded := by
  unfold Obligations.TwiddleRomRounded
  refine ⟨fun L j hL hL' hj => ?_, fun L hL hL' => ?_, by decide +kernel, fun L l k _ hL' hl hlL hk => ?_⟩
  · exact ⟨nearestEven_twr (by omega) hL' hj, nearestEven_twi (by omega) hL' hj⟩
  · exact ⟨twi_zero L, twr_quarter hL hL'⟩
  · obtain ⟨hre, him⟩ := nearestEven_twiddle hL' hl hlL hk
    refine ⟨rfl, hre, him, fun h0 => ?_, fun h4 => ?_, rfl, fun b _ => getLsbD_fneg _ b⟩
    · rw [twiddle_false, h0, Nat.zero_mul]
      exact twi_zero L
    · obtain ⟨hl2, hk4⟩ := quarter_index hl h4
      rw [twiddle_false, hk4, ← pow_add, show l - 2 + (L - l) = L - 2 by omega]
      exact twr_quarter (by omega) hL'

end Sys2Proof.Machine
end

/-! PROOF. The transform of an impulse (40_fft.md R89). -/

section
namespace Sys2Proof.Machine

/-! ### Zeros of any sign -/

/-- A complex value whose parts are zeros of any sign. -/
def Cplx.IsZeros (z : Cplx) : Prop := isZero z.re = true ∧ isZero z.im = true

@[simp] theorem isZero_fneg (w : Word) : isZero (fneg w) = isZero w := by
  obtain ⟨neg, m, hm, rfl⟩ := exists_eq_pack w
  simp [hm]

theorem isZero_fmul {a z : Word} (ha : isFin a = true) (hz : isZero z = true) : isZero (fmul a z) = true := by
  obtain ⟨neg, rfl⟩ := isZero_pack_iff.1 hz
  have hfin : isFin (pack neg 0) = true := isFin_pack (by decide)
  rw [fmul_of_isFin ha hfin, magOf_pack (by decide), magOfBits_zero, Nat.mul_zero]
  have hround : roundMag 0 (2 ^ 149) = 0 := by decide +kernel
  rw [hround, isZero_pack (by decide)]
  rfl

theorem isZero_fadd {a b : Word} (ha : isZero a = true) (hb : isZero b = true) : isZero (fadd a b) = true := by
  obtain ⟨neg, rfl⟩ := isZero_pack_iff.1 ha
  obtain ⟨neg', rfl⟩ := isZero_pack_iff.1 hb
  revert neg neg'
  decide

theorem isZero_fsub {a b : Word} (ha : isZero a = true) (hb : isZero b = true) : isZero (fsub a b) = true :=
  isZero_fadd ha (by rwa [isZero_fneg])

/-- A finite factor times zeros has zeros as its parts. -/
theorem isZeros_cmul {w z : Cplx} (hre : isFin w.re = true) (him : isFin w.im = true) (hz : z.IsZeros) :
    (cmul w z).IsZeros := by
  obtain ⟨hzre, hzim⟩ := hz
  exact ⟨isZero_fsub (isZero_fmul hre hzre) (isZero_fmul him hzim),
    isZero_fadd (isZero_fmul hre hzim) (isZero_fmul him hzre)⟩

/-- Zeros of any sign added to or taken from 1.0 or +0 leave it. -/
theorem cadd_csub_isZeros {u : Word} (hu : u = fONE ∨ u = fZERO) {t : Cplx} (ht : t.IsZeros) :
    cadd ⟨u, fZERO⟩ t = ⟨u, fZERO⟩ ∧ csub ⟨u, fZERO⟩ t = ⟨u, fZERO⟩ := by
  obtain ⟨re, im⟩ := t
  obtain ⟨hre, him⟩ := ht
  obtain ⟨neg, rfl⟩ := isZero_pack_iff.1 hre
  obtain ⟨neg', rfl⟩ := isZero_pack_iff.1 him
  rcases hu with rfl | rfl <;> revert neg neg' <;> decide +kernel

/-! ### The transform -/

/-- The transform of a block of +0 but for its first real part, 1.0 or +0, has that value in every bin: the odd
samples are all +0. -/
theorem ditTransform_impulse {log2nMax : Nat} (hmax : log2nMax ≤ 13) (l : Nat) (hl : l ≤ log2nMax) {u : Word}
    (hu : u = fONE ∨ u = fZERO) {z : Nat → Cplx} (h0 : z 0 = ⟨u, fZERO⟩)
    (hz : ∀ i, 0 < i → i < 2 ^ l → z i = ⟨fZERO, fZERO⟩) {k : Nat} (hk : k < 2 ^ l) :
    ditTransform log2nMax false l z k = ⟨u, fZERO⟩ := by
  induction l generalizing u z k with
  | zero => exact h0
  | succ l ih =>
    rw [pow_succ] at hk hz
    have heven : ∀ k, k < 2 ^ l → ditTransform log2nMax false l (fun i => z (2 * i)) k = ⟨u, fZERO⟩ :=
      fun k hk => ih (by omega) hu (z := fun i => z (2 * i)) h0 (fun i hi hi' => hz _ (by omega) (by omega)) hk
    have hodd : ∀ k, k < 2 ^ l →
        ditTransform log2nMax false l (fun i => z (2 * i + 1)) k = ⟨fZERO, fZERO⟩ := fun k hk =>
      ih (by omega) (.inr rfl) (z := fun i => z (2 * i + 1)) (hz 1 (by omega) (by omega))
        (fun i hi hi' => hz _ (by omega) (by omega)) hk
    have hterm : ∀ k, k < 2 ^ l →
        (cmul (twiddle log2nMax (l + 1) false k) ⟨fZERO, fZERO⟩).IsZeros := fun k hk => by
      obtain ⟨hre, him⟩ := nearestEven_twiddle hmax (Nat.succ_pos l) hl hk
      exact isZeros_cmul hre.1 him.1 ⟨by decide, by decide⟩
    rw [ditTransform]
    split_ifs with hlt
    · rw [heven k hlt, hodd k hlt]
      exact (cadd_csub_isZeros hu (hterm k hlt)).1
    · have hlt' : k - 2 ^ l < 2 ^ l := by omega
      rw [heven _ hlt', hodd _ hlt']
      exact (cadd_csub_isZeros hu (hterm _ hlt')).2

/-- Settles O43: the transform's bins, of an impulse. -/
theorem fftOfImpulse : Obligations.FftOfImpulse := by
  unfold Obligations.FftOfImpulse
  intro s a b n hok hinit hfa hfb hone hzero
  obtain ⟨hlegal, -, hmax, -, -⟩ := size_of_ok hok hinit
  obtain ⟨-, hmax13, -⟩ := (legal_iff s.hw).1 hlegal
  obtain ⟨m, x, hfinishes, hbins, -⟩ := (fftFwdResult.2 s a b).1 ⟨hok, hinit, hfa, hfb⟩
  refine ⟨_, hfinishes, fun k hk => ?_⟩
  have hbin := ditTransform_impulse hmax13 _ hmax (.inl rfl)
    (z := fun i => ⟨memWord s.mem (a + i), 0#32⟩) (by rw [Nat.add_zero, hone]; rfl)
    (fun i hi hi' => by rw [hzero i hi hi']; rfl) hk
  obtain ⟨hre, him⟩ := hbins k hk
  rw [hbin] at hre him
  exact ⟨hre, him⟩

end Sys2Proof.Machine
end

/-! PROOF. The commands of the phase unit (41_phase.md R97 to R99): each is a loop over its elements, and the
two that do not use N never raise NOT_INIT (R119, R120). -/

section
namespace Sys2Proof.Machine

/-- A command that does not use N and has no illegal field value passes Check exactly if its extents are in
range, whether INIT is done or not. -/
theorem outcomes_of_not_usesN {i : Instr} {s : State} {fit : Prop} (hn : usesN i = false)
    (hb : badField s.hw.log2nMax s.nPoints i = false)
    (hfit : (∀ e ∈ extents s.nPoints i, s.fits e.1 e.2) ↔ fit) :
    (fit → check i s = .none) ∧ (¬ fit → faultsWith i s .addrRange) := by
  have hinit : usesN i = true → s.initDone = true := by simp [hn]
  rw [← hfit]
  refine ⟨fun he => (check_eq_none_iff i s).2 ⟨hinit, hb, he⟩, fun he => ?_⟩
  exact faultsWith_of_check (check_eq_addrRange hinit hb he) (by decide)

/-- Settles O19: the passes of the loop of PRINCARG. -/
theorem princargResult : Obligations.PrincargResult := by
  unfold Obligations.PrincargResult
  refine ⟨encodedAs_of_row rfl (by decide), fun s a b cnt => ?_⟩
  obtain ⟨hok, haddr⟩ := outcomes_of_not_usesN (i := .princarg a b cnt) (s := s)
    (fit := s.fits a cnt ∧ s.fits b cnt) rfl rfl (by simp [extents])
  refine ⟨fun h => ?_, haddr⟩
  exact completesWith_of_check (hok h) rfl (passes_loop fun _ _ _ => writesOne_setWord _ _ _)

/-- Settles O20: the passes of the loop of PHASEDIFF. -/
theorem phasediffResult : Obligations.PhasediffResult := by
  unfold Obligations.PhasediffResult
  refine ⟨encodedAs_of_row rfl (by decide), fun s a b c cnt => ?_⟩
  obtain ⟨hok, haddr⟩ := outcomes_of_not_usesN (i := .phasediff a b c cnt) (s := s)
    (fit := s.fits a cnt ∧ s.fits b cnt ∧ s.fits c cnt) rfl rfl (by simp [extents])
  refine ⟨fun h => ?_, haddr⟩
  exact completesWith_of_check (hok h) rfl (passes_loop fun _ _ _ => writesOne_setWord _ _ _)

/-- Settles O21: the passes of the loop of PV_UNWRAP; a pass reads its three words before it writes two. -/
theorem pvUnwrapResult : Obligations.PvUnwrapResult := by
  unfold Obligations.PvUnwrapResult
  refine ⟨encodedAs_of_row rfl (by decide), fun s a b c hop => ?_⟩
  obtain ⟨hok, hinit, haddr⟩ := outcomes_of_usesN (i := .pvUnwrap a b c hop) (s := s)
    (fit := s.fits a s.nPoints ∧ s.fits b s.nPoints ∧ s.fits c s.nPoints) rfl rfl (by simp [extents])
  refine ⟨fun h => ?_, hinit, haddr⟩
  exact completesWith_of_check (hok h) rfl (passes_loop fun _ _ _ => writesTwo_setWord _ _ _ _ _)

end Sys2Proof.Machine
end

/-! PROOF. The functions of the phase unit: OMEGA (41_phase.md R96), and princarg and its fixed points (R95). -/

section
namespace Sys2Proof.Machine

/-! ### OMEGA (R96) -/

/-- `f32` of a non-negative rational is its one rounding (R17). -/
theorem f32OfRatio_roundsTo (num : Nat) {den : Nat} (hden : 0 < den) :
    roundsTo ((num : ℝ) / den) (f32OfRatio num den) := by
  have h := roundsTo_pack_roundMag hden (by positivity) (roundsAlike_div (num * 2 ^ 149) hden) false
  rw [f32OfRatio]
  convert h using 1
  rw [signFactor, if_neg Bool.false_ne_true, Int.cast_one, one_mul, Nat.cast_mul, Nat.cast_pow,
    Nat.cast_ofNat, div_right_comm, mul_div_cancel_right₀ _ (by positivity)]

@[simp] theorem roundMag_zero (den : Nat) : roundMag 0 den = 0 := by simp [roundMag]

theorem valueOf_twoPiF32 : valueOf twoPiF32 = 0xC90FDB / 2 ^ 21 := by decide +kernel

/-- Settles O40: TWO_PI_F32 is the ratio 0xC90FDB / 2^21, so OMEGA is `f32` of the exact product. -/
theorem omegaRounded : Obligations.OmegaRounded := by
  unfold Obligations.OmegaRounded
  refine ⟨fun L k hop => ⟨?_, fun h => ?_⟩, ?_⟩
  · have h := f32OfRatio_roundsTo (0xC90FDB * k * hop) (den := 2 ^ 21 * 2 ^ L) (by positivity)
    rw [omega]
    convert h using 1
    rw [show (0x40C90FDB#32) = twoPiF32 from rfl, valueOf_twoPiF32]
    push_cast
    ring
  · rw [omega, f32OfRatio, Nat.mul_assoc 0xC90FDB, h, Nat.mul_zero, Nat.zero_mul, roundMag_zero]
    rfl
  · decide +kernel

/-! ### Rounding is monotone -/

/-- Of two magnitudes the greater one's nearest magnitude bits are not below the other's: below them it would
be at the midpoint of the two, both even, and the bits between would be nearer. -/
theorem NearestMag.mono {t t' : ℝ} {b b' : Nat} (h : NearestMag t b) (h' : NearestMag t' b') (ht : t ≤ t') :
    b ≤ b' := by
  by_contra hlt
  rw [not_le] at hlt
  have hV := cast_magOfBits_lt hlt
  obtain ⟨hnear, htie⟩ := h b'
  obtain ⟨hnear', htie'⟩ := h' b
  rw [← sq_le_sq] at hnear hnear'
  have hmid : 2 * t = magOfBits b + magOfBits b' := by nlinarith
  have hmid' : t' = t := by nlinarith
  subst hmid'
  have habs : |(magOfBits b : ℝ) - t'| = |(magOfBits b' : ℝ) - t'| := by
    rw [← abs_neg]
    congr 1
    linarith
  have heven := htie habs hlt.ne
  have heven' := htie' habs.symm hlt.ne'
  have hlo := cast_magOfBits_lt (show b' < b' + 1 by omega)
  have hhi := cast_magOfBits_lt (show b' + 1 < b by omega)
  have hbetween := (h (b' + 1)).1
  rw [← sq_le_sq] at hbetween
  nlinarith

theorem roundMag_mono {num num' den : Nat} (hden : 0 < den) (h : num ≤ num') :
    roundMag num den ≤ roundMag num' den := by
  obtain ⟨b, hb, hround⟩ := exists_nearestMag_roundMag hden (roundsAlike_div num hden)
  obtain ⟨b', hb', hround'⟩ := exists_nearestMag_roundMag hden (roundsAlike_div num' hden)
  have hle : b ≤ b' := hb.mono hb' (by gcongr)
  rw [hround, hround']
  exact min_le_min_right _ hle

/-! ### princarg (R95) -/

/-- The difference from +0 is the operand itself, the sign of a zero included. -/
theorem fsub_posZero {y : Word} (hy : isFin y = true) : fsub y fZERO = y := by
  obtain ⟨neg, m, hm, rfl⟩ := isFin_pack_iff.1 hy
  have hsum : fixedOf (pack neg m) + fixedOf (fneg fZERO) = signFactor neg * magOfBits m := by
    rw [fixedOf_pack (by omega), show fixedOf (fneg fZERO) = 0 by decide, add_zero]
  rw [fsub, fadd_of_isFin hy (by decide), hsum, signBit_pack (by omega)]
  rcases Nat.eq_zero_or_pos m with rfl | hpos
  · cases neg <;> rfl
  · have hmag : 0 < magOfBits m := Nat.pos_of_ne_zero fun h => hpos.ne' (magOfBits_eq_zero.1 h)
    have habs : (signFactor neg * (magOfBits m : Int)).natAbs = magOfBits m := by
      cases neg <;> simp [signFactor]
    have hsign : decide (signFactor neg * (magOfBits m : Int) < 0) = neg := by
      cases neg <;> simp [signFactor, hmag]
    rw [if_neg (by omega), habs, hsign, roundMag_exact hm]

/-- The floor of a value from +0 up to, not including, 1 is +0. -/
theorem ffloor_of_lt_one {m : Nat} (hm : m < 0x3F800000) : ffloor (pack false m) = fZERO := by
  rcases Nat.eq_zero_or_pos m with rfl | hpos
  · exact ffloor_of_isZero (isZero_pack (by decide))
  · have hone : magOfBits 0x3F800000 = 2 ^ 149 := by decide +kernel
    have hlt := hone ▸ magOfBits_strictMono hm
    have hfloor : fixedOf (pack false m) / 2 ^ 149 = 0 := by
      rw [fixedOf_pack (by omega), signFactor, if_neg Bool.false_ne_true, one_mul]
      omega
    rw [ffloor_of_isFin (by rw [isFin_pack (by omega), decide_eq_true (by omega)])
      (by rw [isZero_pack (by omega), decide_eq_false (by omega)]), hfloor]
    rfl

/-- No value lies between two consecutive magnitudes. -/
theorem fixedOf_le_of_lt_succ {y : Word} {b : Nat} (h : fixedOf y < magOfBits (b + 1)) :
    fixedOf y ≤ magOfBits b := by
  obtain ⟨neg, m, hm, rfl⟩ := exists_eq_pack y
  rw [fixedOf_pack hm] at h ⊢
  cases neg
  · rw [signFactor, if_neg Bool.false_ne_true, one_mul, Nat.cast_lt, magOfBits_strictMono.lt_iff_lt] at h
    rw [signFactor, if_neg Bool.false_ne_true, one_mul, Nat.cast_le, magOfBits_strictMono.le_iff_le]
    omega
  · rw [signFactor, if_pos rfl]
    omega

/-- Within the range the sum with PI_F32 rounds to a value from +0 up to the last one below TWO_PI_F32: the
greatest sum is the midpoint of that one and TWO_PI_F32, and ties go to its even significand. -/
theorem fadd_piF32_of_range {y : Word} (hy : isFin y = true) (hlo : -valueOf piF32 ≤ valueOf y)
    (hhi : valueOf y < valueOf piF32) : ∃ m, m ≤ 0x40C90FDA ∧ fadd y piF32 = pack false m := by
  have hpi : fixedOf piF32 = magOfBits 0x40490FDB := by decide +kernel
  have hlo' : 0 ≤ fixedOf y + fixedOf piF32 := by
    rw [neg_le_iff_add_nonneg, valueOf, valueOf, ← add_div, le_div_iff₀ (by positivity), zero_mul] at hlo
    exact_mod_cast hlo
  have hhi' : fixedOf y ≤ magOfBits 0x40490FDA := by
    rw [valueOf, valueOf, div_lt_div_iff_of_pos_right (by positivity), Int.cast_lt, hpi] at hhi
    exact fixedOf_le_of_lt_succ hhi
  rw [fadd_of_isFin hy (by decide)]
  split_ifs with hzero
  · exact ⟨0, by decide, by rw [show signBit piF32 = false from rfl, Bool.and_false]⟩
  · refine ⟨_, ?_, by rw [decide_eq_false (not_lt.2 hlo')]⟩
    calc roundMag (fixedOf y + fixedOf piF32).natAbs 1
        ≤ roundMag (magOfBits 0x40490FDA + magOfBits 0x40490FDB) 1 := roundMag_mono one_pos (by omega)
      _ ≤ 0x40C90FDA := by decide +kernel

/-- The quotient of such a sum by TWO_PI_F32 is below 1. -/
theorem fdiv_twoPiF32_lt_one {m : Nat} (hm : m ≤ 0x40C90FDA) :
    ∃ q, q < 0x3F800000 ∧ fdiv (pack false m) twoPiF32 = pack false q := by
  have hfin : isFin (pack false m) = true := by rw [isFin_pack (by omega), decide_eq_true (by omega)]
  have hquot := fdiv_of_isFin hfin (show isFin twoPiF32 = true by decide) (by decide)
  have hsign : (false != signBit twoPiF32) = false := rfl
  rw [signBit_pack (by omega), magOf_pack (by omega), hsign] at hquot
  refine ⟨_, ?_, hquot⟩
  have hle := magOfBits_strictMono.monotone hm
  calc roundMag (magOfBits m * 2 ^ 149) (magOf twoPiF32)
      ≤ roundMag (magOfBits 0x40C90FDA * 2 ^ 149) (magOf twoPiF32) :=
        roundMag_mono (by decide +kernel) (Nat.mul_le_mul_right _ hle)
    _ < 0x3F800000 := by decide +kernel

theorem princarg_of_range {y : Word} (hy : isFin y = true) (hlo : -valueOf piF32 ≤ valueOf y)
    (hhi : valueOf y < valueOf piF32) : princarg y = y := by
  obtain ⟨m, hm, hsum⟩ := fadd_piF32_of_range hy hlo hhi
  obtain ⟨q, hq, hquot⟩ := fdiv_twoPiF32_lt_one hm
  have hprod : fmul twoPiF32 fZERO = fZERO := by decide +kernel
  rw [princarg, hsum, hquot, ffloor_of_lt_one hq, hprod, fsub_posZero hy]

theorem isNaN_or_infinity_of_not_isFin {w : Word} (h : isFin w = false) :
    isNaN w = true ∨ ∃ neg, w = infinity neg := by
  obtain ⟨neg, m, hm, rfl⟩ := exists_eq_pack w
  rw [isFin_pack hm, decide_eq_false_iff_not, not_lt] at h
  rcases h.eq_or_lt with rfl | hlt
  · exact .inr ⟨neg, rfl⟩
  · exact .inl (by rw [isNaN_pack hm, decide_eq_true hlt])

/-- An infinity stays one up to the last operation, which subtracts it from itself. -/
theorem princarg_of_not_isFin {y : Word} (hy : isFin y = false) : princarg y = canonNaN := by
  rcases isNaN_or_infinity_of_not_isFin hy with hnan | ⟨neg, rfl⟩
  · exact (operations_of_isNaN (.inl hnan)).1
  · cases neg <;> decide +kernel

/-- Settles O41: of a phase in the range the quotient of R95 is below 1, so its floor and with it the multiple
of TWO_PI_F32 taken off are +0. -/
theorem princargFixedPoints : Obligations.PrincargFixedPoints := by
  unfold Obligations.PrincargFixedPoints
  refine ⟨fun _ => rfl, fun _ => princarg_of_range, fun _ => princarg_of_not_isFin, ?_⟩
  decide +kernel

end Sys2Proof.Machine
end

/-! PROOF. The commands of the frame processor (42_frame.md R101 to R108): each is a loop of word writes, the
circular ones over slots counted from the head (R100). -/

section
namespace Sys2Proof.Machine

/-! ### Check of a command with a field range, and completion with a moved head -/

/-- A command that is not stopped by NOT_INIT raises FIELD_RANGE for illegal field values, before its extents
are looked at (R120). -/
theorem outcomes_of_fieldRange {i : Instr} {s : State} {legal fit : Prop}
    (hinit : usesN i = true → s.initDone = true)
    (hlegal : badField s.hw.log2nMax s.nPoints i = false ↔ legal)
    (hfit : (∀ e ∈ extents s.nPoints i, s.fits e.1 e.2) ↔ fit) :
    (legal ∧ fit → check i s = .none) ∧
    (¬ legal → faultsWith i s .fieldRange) ∧
    (legal ∧ ¬ fit → faultsWith i s .addrRange) := by
  rw [← hlegal, ← hfit]
  refine ⟨fun ⟨hb, he⟩ => ?_, fun hb => ?_, fun ⟨hb, he⟩ => ?_⟩
  · exact (check_eq_none_iff i s).2 ⟨hinit, hb, he⟩
  · exact faultsWith_of_check (check_eq_fieldRange hinit (by simpa using hb)) (by decide)
  · exact faultsWith_of_check (check_eq_addrRange hinit hb he) (by decide)

/-- The outcomes of the circular commands: none of them uses N, and LG and CNT are their range fields. -/
theorem outcomes_of_circular {i : Instr} {s : State} {lg cnt : Nat} {fit : Prop} (hn : usesN i = false)
    (hb : badField s.hw.log2nMax s.nPoints i = badCircular lg cnt)
    (hfit : (∀ e ∈ extents s.nPoints i, s.fits e.1 e.2) ↔ fit) :
    (circularLegal lg cnt ∧ fit → check i s = .none) ∧
    (¬ circularLegal lg cnt → faultsWith i s .fieldRange) ∧
    (circularLegal lg cnt ∧ ¬ fit → faultsWith i s .addrRange) :=
  outcomes_of_fieldRange (by simp [hn]) (by rw [hb, not_badCircular_iff]) hfit

theorem completesMoving_of_check {i : Instr} {s : State} {m : Mem} {pr : Fin 8} {lg adv : Nat}
    {post : Mem → Prop} (h : check i s = .none) (heffect : effectOf i s = (s.setMem m).advance pr lg adv)
    (hpost : post m) : completesMoving i s pr lg adv post :=
  ⟨m, finishes_of_check h (by rw [heffect]; rfl), hpost⟩

/-! ### Element-wise commands -/

/-- Settles O22: the passes of the loop of VMUL. -/
theorem vmulResult : Obligations.VmulResult := by
  unfold Obligations.VmulResult
  refine ⟨encodedAs_of_row rfl (by decide), fun s a b c cnt => ?_⟩
  obtain ⟨hok, haddr⟩ := outcomes_of_not_usesN (i := .vmul a b c cnt) (s := s)
    (fit := s.fits a cnt ∧ s.fits b cnt ∧ s.fits c cnt) rfl rfl (by simp [extents])
  refine ⟨fun h => ?_, haddr⟩
  exact completesWith_of_check (hok h) rfl (passes_loop fun _ _ _ => writesOne_setWord _ _ _)

/-- Settles O23: the passes of the loop of ZPAD, which runs over all N words. -/
theorem zpadResult : Obligations.ZpadResult := by
  unfold Obligations.ZpadResult
  refine ⟨encodedAs_of_row rfl (by decide), fun s a b cnt => ?_⟩
  have houtcomes (hinit : s.initDone = true) := outcomes_of_fieldRange (i := .zpad a b cnt)
    (legal := cnt ≤ s.nPoints) (fit := s.fits a cnt ∧ s.fits b s.nPoints) (fun _ => hinit)
    (by simp [badField]) (by simp [extents])
  refine ⟨fun ⟨hinit, h⟩ => ?_, fun hinit => ?_, fun ⟨hinit, hcnt⟩ => ?_, fun ⟨hinit, h⟩ => ?_⟩
  · obtain ⟨hok, -⟩ := houtcomes hinit
    exact completesWith_of_check (hok h) rfl (passes_loop fun _ _ _ => writesOne_setWord _ _ _)
  · exact faultsWith_of_check (check_eq_notInit rfl hinit) (by decide)
  · obtain ⟨-, hfield, -⟩ := houtcomes hinit
    exact hfield (Nat.not_le.2 hcnt)
  · obtain ⟨-, -, haddr⟩ := houtcomes hinit
    exact haddr h

/-- Settles O29: the passes of the loop of SPLIT_CARRY; a pass reads its three words before it writes two. -/
theorem splitCarryResult : Obligations.SplitCarryResult := by
  unfold Obligations.SplitCarryResult
  refine ⟨encodedAs_of_row rfl (by decide), fun s a b c cnt => ?_⟩
  obtain ⟨hok, haddr⟩ := outcomes_of_not_usesN (i := .splitCarry a b c cnt) (s := s)
    (fit := s.fits a (2 * cnt) ∧ s.fits b cnt ∧ s.fits c cnt) rfl rfl (by simp [extents])
  refine ⟨fun h => ?_, haddr⟩
  exact completesWith_of_check (hok h) rfl (passes_loop fun _ _ _ => writesTwo_setWord _ _ _ _ _)

/-! ### Circular commands -/

/-- Settles O24: the passes of the loop of HIST_PUSH, over the slots from the head on. -/
theorem histPushResult : Obligations.HistPushResult := by
  unfold Obligations.HistPushResult
  refine ⟨encodedAs_of_row rfl (by decide), fun s pr lg cnt a b => ?_⟩
  obtain ⟨hok, hfield, haddr⟩ := outcomes_of_circular (i := .histPush pr lg cnt a b) (s := s)
    (fit := s.fits a cnt ∧ s.fits b (2 ^ lg)) rfl rfl (by simp [extents])
  refine ⟨fun h => completesMoving_of_check (hok h) rfl (passes_loop fun i m _ => ?_), hfield, haddr⟩
  rw [slotAt_natCast]
  exact writesOne_setWord _ _ _

/-- Settles O25: the passes of the loop of HIST_EXTRACT; CNT is at most the buffer's length, so the slot CNT
places before the head is counted forward, without a subtraction below zero. -/
theorem histExtractResult : Obligations.HistExtractResult := by
  unfold Obligations.HistExtractResult
  refine ⟨encodedAs_of_row rfl (by decide), fun s pr lg cnt b c => ?_⟩
  obtain ⟨hok, hfield, haddr⟩ := outcomes_of_circular (i := .histExtract pr lg cnt b c) (s := s)
    (fit := s.fits b (2 ^ lg) ∧ s.fits c cnt) rfl rfl (by simp [extents])
  refine ⟨fun h => completesWith_of_check (hok h) rfl (passes_loop fun i m _ => ?_), hfield, haddr⟩
  obtain ⟨⟨-, hcnt⟩, -⟩ := h
  rw [slotAt_back _ _ _ _ _ hcnt]
  exact writesOne_setWord _ _ _

/-- Settles O26: the passes of the loop of OLA_ADD; the head moves on by D, which no field check bounds. -/
theorem olaAddResult : Obligations.OlaAddResult := by
  unfold Obligations.OlaAddResult
  refine ⟨encodedAs_of_row rfl (by decide), fun s pr lg cnt a b d => ?_⟩
  obtain ⟨hok, hfield, haddr⟩ := outcomes_of_circular (i := .olaAdd pr lg cnt a b d) (s := s)
    (fit := s.fits a cnt ∧ s.fits b (2 ^ lg)) rfl rfl (by simp [extents])
  refine ⟨fun h => completesMoving_of_check (hok h) rfl (passes_loop fun i m _ => ?_), hfield, haddr⟩
  rw [slotAt_natCast]
  exact writesOne_setWord _ _ _

/-- Settles O27: the passes of the loop of OLA_DRAIN; a pass reads the slot before it zeroes it. -/
theorem olaDrainResult : Obligations.OlaDrainResult := by
  unfold Obligations.OlaDrainResult
  refine ⟨encodedAs_of_row rfl (by decide), fun s pr lg cnt b c => ?_⟩
  obtain ⟨hok, hfield, haddr⟩ := outcomes_of_circular (i := .olaDrain pr lg cnt b c) (s := s)
    (fit := s.fits b (2 ^ lg) ∧ s.fits c cnt) rfl rfl (by simp [extents])
  refine ⟨fun h => completesMoving_of_check (hok h) rfl (passes_loop fun i m _ => ?_), hfield, haddr⟩
  rw [slotAt_natCast]
  exact writesTwo_setWord _ _ _ _ _

/-- Settles O28: the passes of the loop of OLA_DRAIN_MIX; a pass reads wet and dry before it zeroes the slot. -/
theorem olaDrainMixResult : Obligations.OlaDrainMixResult := by
  unfold Obligations.OlaDrainMixResult
  refine ⟨encodedAs_of_row rfl (by decide), fun s pr lg cnt a b c => ?_⟩
  obtain ⟨hok, hfield, haddr⟩ := outcomes_of_circular (i := .olaDrainMix pr lg cnt a b c) (s := s)
    (fit := s.fits a cnt ∧ s.fits b (2 ^ lg) ∧ s.fits c cnt) rfl rfl (by simp [extents])
  refine ⟨fun h => completesMoving_of_check (hok h) rfl (passes_loop fun i m _ => ?_), hfield, haddr⟩
  rw [slotAt_natCast]
  exact writesTwo_setWord _ _ _ _ _

end Sys2Proof.Machine
end

/-! SUPPORT. The complex buffers: what a bin reads after a bin is written (00_scope.md R20), and that sums and
products do not depend on the order of the operands, NaNs and infinities included (R17, R19). -/

section
namespace Sys2Proof.Machine

/-! ### Sums and products with the operands exchanged (R17, R19) -/

theorem isFin_or_infinity_of_not_isNaN {w : Word} (h : ¬ isNaN w = true) :
    isFin w = true ∨ ∃ neg, w = infinity neg := by
  cases hf : isFin w
  · exact .inr ((isNaN_or_infinity_of_not_isFin hf).resolve_left h)
  · exact .inl rfl

/-- A NaN result is the canonical one, so it too is the same either way round. -/
theorem fadd_comm (a b : Word) : fadd a b = fadd b a := by
  by_cases hnan : isNaN a = true ∨ isNaN b = true
  · rw [(operations_of_isNaN hnan).1, (operations_of_isNaN hnan.symm).1]
  obtain ⟨hnanA, hnanB⟩ := not_or.1 hnan
  rcases isFin_or_infinity_of_not_isNaN hnanA with ha | ⟨s, rfl⟩ <;>
    rcases isFin_or_infinity_of_not_isNaN hnanB with hb | ⟨t, rfl⟩
  · rw [fadd_of_isFin ha hb, fadd_of_isFin hb ha, add_comm, Bool.and_comm]
  · rw [fadd_infinity_right ha, fadd_infinity_left ha]
  · rw [fadd_infinity_right hb, fadd_infinity_left hb]
  · rw [(operations_of_infinities s t).1, (operations_of_infinities t s).1]
    cases s <;> cases t <;> rfl

/-- Exchanging the factors exchanges the two products of the imaginary part. -/
theorem cmul_comm (x y : Cplx) : cmul x y = cmul y x := by
  simp only [cmul, fmul_comm y.re, fmul_comm y.im, fadd_comm (fmul x.im y.re)]

/-! ### Z-buffers -/

section
variable {n k : Nat} (hk : k < n) (m : Mem)
include hk

@[simp] theorem zRead_zWrite_same (z : Nat) (v : Cplx) : zRead n (zWrite n m z k v) z k = v := by
  have hne : z + k ≠ z + n + k := by omega
  rw [zRead, zWrite, memWord_setWord_same, memWord_setWord_of_ne _ _ hne, memWord_setWord_same]

theorem zRead_zWrite_of_disjoint {z y : Nat} (v : Cplx) (h : y + 2 * n ≤ z ∨ z + 2 * n ≤ y) :
    zRead n (zWrite n m z k v) y k = zRead n m y k := by
  simp only [zRead, zWrite, memWord_setWord]
  rw [if_neg (by omega), if_neg (by omega), if_neg (by omega), if_neg (by omega)]

end

/-! ### Vector and matrix buffers -/

/-- The imaginary word of a Z-buffer that starts at an even multiple of `n` is counted by the next odd one. -/
theorem zRead_eq_words {n z y : Nat} (h : z + n = y) (m : Mem) (k : Nat) :
    zRead n m z k = ⟨memWord m (z + k), memWord m (y + k)⟩ := by
  rw [zRead, h]

theorem matRead_eq_words (n : Nat) (m : Mem) (a k : Nat) :
    matRead n m a k =
      ⟨⟨memWord m (a + k), memWord m (a + n + k)⟩,
       ⟨memWord m (a + 2 * n + k), memWord m (a + 3 * n + k)⟩,
       ⟨memWord m (a + 4 * n + k), memWord m (a + 5 * n + k)⟩,
       ⟨memWord m (a + 6 * n + k), memWord m (a + 7 * n + k)⟩⟩ := by
  rw [matRead, zRead_eq_words rfl, zRead_eq_words (z := a + 2 * n) (y := a + 3 * n) (by ring),
    zRead_eq_words (z := a + 4 * n) (y := a + 5 * n) (by ring),
    zRead_eq_words (z := a + 6 * n) (y := a + 7 * n) (by ring)]

section
variable {n k : Nat} (hk : k < n) (m : Mem)
include hk

@[simp] theorem matRead_matWrite_same (a : Nat) (v : Mat2) : matRead n (matWrite n m a k v) a k = v := by
  simp (disch := omega) only [matRead, matWrite, zRead_zWrite_same hk, zRead_zWrite_of_disjoint hk]

/-- Both Z-buffers of a vector buffer written at one bin, as a pass of CMAT_APPLY does: the four words are
distinct, so each keeps what was written (R111). -/
theorem words_of_vector_write (c : Nat) (l r : Cplx) :
    let m' := zWrite n (zWrite n m c k l) (c + 2 * n) k r
    memWord m' (c + k) = l.re ∧ memWord m' (c + n + k) = l.im ∧
    memWord m' (c + 2 * n + k) = r.re ∧ memWord m' (c + 3 * n + k) = r.im ∧
    keepsOutside m m' fun w =>
      w = c + k ∨ w = c + n + k ∨ w = c + 2 * n + k ∨ w = c + 3 * n + k := by
  intro m'
  have hodd : c + 2 * n + n = c + 3 * n := by ring
  have hl : zRead n m' c k = l := by
    rw [zRead_zWrite_of_disjoint hk _ _ (by omega), zRead_zWrite_same hk]
  have hr : zRead n m' (c + 2 * n) k = r := zRead_zWrite_same hk _ _ _
  rw [zRead_eq_words rfl] at hl
  rw [zRead_eq_words hodd] at hr
  refine ⟨congrArg Cplx.re hl, congrArg Cplx.im hl, congrArg Cplx.re hr, congrArg Cplx.im hr, ?_⟩
  refine WritesIn.keepsOutside ((WritesIn.none.zWrite l ?_ ?_).zWrite r ?_ ?_) <;> simp [hodd]

end

/-- The eight words of a bin of a matrix buffer are distinct, and word `j` lies in row `j` of `n` words
(R20, R112). -/
theorem words_of_matWrite {n k : Nat} (hk : k < n) (m : Mem) (b : Nat) (v : Mat2) :
    let m' := matWrite n m b k v
    memWord m' (b + k) = v.e11.re ∧ memWord m' (b + n + k) = v.e11.im ∧
    memWord m' (b + 2 * n + k) = v.e12.re ∧ memWord m' (b + 3 * n + k) = v.e12.im ∧
    memWord m' (b + 4 * n + k) = v.e21.re ∧ memWord m' (b + 5 * n + k) = v.e21.im ∧
    memWord m' (b + 6 * n + k) = v.e22.re ∧ memWord m' (b + 7 * n + k) = v.e22.im ∧
    keepsOutside m m' fun w => ∃ j, j < 8 ∧ w = b + j * n + k := by
  intro m'
  have hread : matRead n m' b k = v := matRead_matWrite_same hk m b v
  have hkeeps : keepsOutside m m' fun w => ∃ j, j < 8 ∧ w = b + j * n + k :=
    ((((WritesIn.none.zWrite _ ⟨0, by omega, by ring⟩ ⟨1, by omega, by ring⟩).zWrite _
      ⟨2, by omega, rfl⟩ ⟨3, by omega, by ring⟩).zWrite _
      ⟨4, by omega, rfl⟩ ⟨5, by omega, by ring⟩).zWrite _
      ⟨6, by omega, rfl⟩ ⟨7, by omega, by ring⟩).keepsOutside
  rw [matRead_eq_words] at hread
  rw [← hread]
  exact ⟨rfl, rfl, rfl, rfl, rfl, rfl, rfl, rfl, hkeeps⟩

end Sys2Proof.Machine
end

/-! PROOF. The commands of the spectral multiplier (43_spectral_multiplier.md R110 to R112): each is a loop over
the bins, and a pass reads all inputs of its bin before it writes. -/

section
namespace Sys2Proof.Machine

theorem cmulMem_comm (n a b c : Nat) : cmulMem n a b c = cmulMem n b a c := by
  unfold cmulMem
  congr 1
  funext k m
  rw [cmul_comm]

/-- Settles O30: a pass writes one product, which is the same with its factors exchanged. -/
theorem cmulResult : Obligations.CmulResult := by
  unfold Obligations.CmulResult
  refine ⟨encodedAs_of_row rfl (by decide), fun s a b c => ?_⟩
  have houtcomes (a b : Nat) := outcomes_of_usesN (i := .cmul a b c) (s := s)
    (fit := s.fits a (2 * s.nPoints) ∧ s.fits b (2 * s.nPoints) ∧ s.fits c (2 * s.nPoints)) rfl rfl
    (by simp [extents])
  obtain ⟨hok, hinit, haddr⟩ := houtcomes a b
  refine ⟨fun h => ⟨?_, ?_⟩, hinit, haddr⟩
  · exact completesWith_of_check (hok h) rfl (passes_loop fun _ _ _ => writesTwo_setWord _ _ _ _ _)
  · obtain ⟨hdone, hfitA, hfitB, hfitC⟩ := h
    have hok' : check (.cmul b a c) s = .none := (houtcomes b a).1 ⟨hdone, hfitB, hfitA, hfitC⟩
    rw [exec_eq_complete, exec_eq_complete, complete_of_ok _ (hok ⟨hdone, hfitA, hfitB, hfitC⟩),
      complete_of_ok _ hok']
    simp only [effectOf, cmulMem_comm _ b a]

/-- Settles O31: the passes of the loop of CMAT_APPLY. -/
theorem cmatApplyResult : Obligations.CmatApplyResult := by
  unfold Obligations.CmatApplyResult
  refine ⟨encodedAs_of_row rfl (by decide), fun s a b c => ?_⟩
  obtain ⟨hok, hinit, haddr⟩ := outcomes_of_usesN (i := .cmatApply a b c) (s := s)
    (fit := s.fits a (8 * s.nPoints) ∧ s.fits b (4 * s.nPoints) ∧ s.fits c (4 * s.nPoints)) rfl rfl
    (by simp [extents])
  refine ⟨fun h => completesWith_of_check (hok h) rfl (passes_loop fun k m hk => ?_), hinit, haddr⟩
  rw [matRead_eq_words, zRead_eq_words rfl,
    zRead_eq_words (z := b + 2 * s.nPoints) (y := b + 3 * s.nPoints) (by ring)]
  exact words_of_vector_write hk m c _ _

/-- Settles O32: the passes of the loop of CMAT_INV, which write the pseudo-inverse in the grouping of R112. -/
theorem cmatInvResult : Obligations.CmatInvResult := by
  unfold Obligations.CmatInvResult
  refine ⟨encodedAs_of_row rfl (by decide), fun s a b => ?_⟩
  obtain ⟨hok, hinit, haddr⟩ := outcomes_of_usesN (i := .cmatInv a b) (s := s)
    (fit := s.fits a (8 * s.nPoints) ∧ s.fits b (8 * s.nPoints)) rfl rfl (by simp [extents])
  refine ⟨fun h => completesWith_of_check (hok h) rfl (passes_loop fun k m hk => ?_), hinit, haddr⟩
  rw [matRead_eq_words]
  exact words_of_matWrite hk m b _

end Sys2Proof.Machine
end

/-! PROOF. The control and data-movement commands (44_control.md R113 to R117): NOP, SETPARAM, SETP, FILL and
COPY. None of them uses N. -/

section
namespace Sys2Proof.Machine

/-! ### The register commands -/

/-- A command that does not use N, has no illegal field and no operand in DMEM passes Check in every state, before
INIT too (R119, R120). -/
theorem check_eq_none_of_no_extents {i : Instr} {s : State} (hn : usesN i = false)
    (hb : badField s.hw.log2nMax s.nPoints i = false) (he : extents s.nPoints i = []) : check i s = .none :=
  (check_eq_none_iff i s).2 ⟨by simp [hn], hb, by simp [he]⟩

/-- Settles O7: every field is reserved, and the command that decodes to NOP is its encoding, the zero word. -/
theorem nopResult : Obligations.NopResult := by
  unfold Obligations.NopResult
  have hencoded : encodedAs 0x00 [placePR, placeLG, placeCNT, placeA, placeB, placeC, placeD, placeIMM]
      fun _ => .nop := encodedAs_of_row rfl (by decide)
  refine ⟨fun c hopc => ⟨fun hc => ?_, fun hc => (hencoded c hopc).2 ?_⟩, fun s => ?_⟩
  · rw [hc]
    decide
  · by_contra hzero
    push Not at hzero
    obtain ⟨-, hencode⟩ := encodeOfDecode c .nop ((hencoded c hopc).1 hzero)
    exact hc hencode.symm
  · exact finishes_of_check (check_eq_none_of_no_extents rfl rfl rfl) rfl

/-- Settles O8: ids 0, 1 and 2 pass Check and write their registers, every other id is an illegal field. -/
theorem setparamResult : Obligations.SetparamResult := by
  unfold Obligations.SetparamResult
  refine ⟨encodedAs_of_row rfl (by decide), fun s v => ⟨?_, ?_, ?_, fun id hid => ?_⟩⟩
  · rintro r rfl
    exact finishes_of_check (check_eq_none_of_no_extents rfl rfl rfl) rfl
  · exact finishes_of_check (check_eq_none_of_no_extents rfl rfl rfl) rfl
  · rintro x rfl
    exact finishes_of_check (check_eq_none_of_no_extents rfl rfl rfl) rfl
  · exact faultsWith_of_check (check_eq_fieldRange nofun (by simpa [badField] using hid)) (by decide)

/-- A step that changes a pointer register is a reset, or the engine's with a command whose effect changes one:
beside a fault-free completion no other turn touches the command state. -/
theorem step_changes_ptr {s t : State} (h : step s = .next t) (hne : t.p ≠ s.p) :
    (∃ mv ts, s.turns = .host mv :: ts ∧ isReset s mv) ∨
    (s.engineTurn ∧ ∃ c i ts, s.cur = some c ∧ decode c = .ok i ∧
      (effectOf i { s with turns := ts }).p ≠ s.p) := by
  rcases step_change h with ⟨he, ts, hchange⟩ | ⟨mv, ts, hmv, ⟨hr, -⟩ | ⟨-, hchange⟩⟩
  · rcases hchange.completes_or_keeps with ⟨c, i, hcur, hdec, -, rfl⟩ | ⟨-, hkeeps⟩
    · exact .inr ⟨he, c, i, ts, hcur, hdec, hne⟩
    · exact absurd hkeeps.p hne
  · exact .inl ⟨mv, ts, hmv, hr⟩
  · exact absurd hchange.keepsCommandState.p hne

/-- Settles O9: SETP writes one register, and the commands whose effect writes one are listed by
`effectOf_p`. -/
theorem setpResult : Obligations.SetpResult := by
  unfold Obligations.SetpResult
  refine ⟨encodedAs_of_row rfl (by decide), fun s pr cnt hcnt => ⟨(s.setPtr pr cnt).p, ?_, ?_, fun q hq => ?_⟩,
    fun s t h hne => ?_⟩
  · exact finishes_of_check (check_eq_none_of_no_extents rfl rfl rfl) rfl
  · rw [get_setPtr, if_pos rfl, BitVec.toNat_ofNat, Nat.mod_eq_of_lt hcnt]
  · rw [get_setPtr, if_neg hq]
  · refine (step_changes_ptr h hne).imp_right ?_
    rintro ⟨he, c, i, ts, hcur, hdec, heffect⟩
    exact ⟨he, c, i, hcur, hdec, effectOf_p i { s with turns := ts } heffect⟩

/-! ### FILL -/

/-- The words after FILL (R116). -/
theorem memWord_fillMem (a cnt : Nat) (imm : Word) (m : Mem) {i : Nat} (hi : i < cnt) :
    memWord (fillMem a cnt imm m) (a + i) = imm :=
  loop_row (P := fun _ => True) (read := memWord) (fun _ => imm) trivial (fun _ _ _ _ => trivial)
    (fun _ _ _ _ _ => memWord_setWord _ _ _ _) hi

/-- Settles O10: the words as `memWord_fillMem` says, and the frame of the one extent FILL writes. -/
theorem fillResult : Obligations.FillResult := by
  unfold Obligations.FillResult
  refine ⟨encodedAs_of_row rfl (by decide), fun s a cnt imm => ?_⟩
  obtain ⟨hok, haddr⟩ := outcomes_of_not_usesN (i := .fill a cnt imm) (s := s) (fit := s.fits a cnt) rfl rfl
    (by simp [extents])
  refine ⟨fun h => completesWith_of_check (hok h) rfl ⟨fun i hi => ?_, ?_⟩, haddr⟩
  · exact memWord_fillMem a cnt imm s.mem hi
  · exact keepsOutside_extent (.fill a cnt imm) s rfl

/-! ### COPY -/

/-- The source word that destination word `i` of an ascending copy from `a` to `b` ends with: a destination above
the source repeats the `b - a` words between the two (R117). -/
def copySource (a b i : Nat) : Nat := if a < b then i % (b - a) else i

/-- Of `cnt` words, the remainder is the index itself unless the destination begins inside the source. -/
theorem copySource_eq {a b cnt i : Nat} (hi : i < cnt) :
    copySource a b i = if a < b ∧ b < a + cnt then i % (b - a) else i := by
  unfold copySource
  by_cases hab : a < b
  · by_cases hoverlap : b < a + cnt
    · rw [if_pos hab, if_pos ⟨hab, hoverlap⟩]
    · rw [if_pos hab, if_neg (by tauto), Nat.mod_eq_of_lt (by omega)]
  · rw [if_neg hab, if_neg (by tauto)]

/-- A word of the source inside the destination was put there by an earlier pass: the same word goes on to both
destination words. -/
theorem copySource_of_overwritten {a b i : Nat} (h : b ≤ a + i) (hab : a < b) :
    copySource a b (a + i - b) = copySource a b i := by
  rw [copySource, copySource, if_pos hab, if_pos hab, Nat.mod_eq_sub_mod (a := i) (by omega)]
  congr 1
  omega

/-- A word of the source that no earlier pass wrote goes to the destination word of the same index. -/
theorem copySource_of_untouched {a b i : Nat} (h : ¬ (b ≤ a + i ∧ a < b)) : copySource a b i = i := by
  unfold copySource
  split
  · exact Nat.mod_eq_of_lt (by omega)
  · rfl

theorem copyMem_succ (a b n : Nat) (m : Mem) : copyMem a b (n + 1) m =
    setWord (copyMem a b n m) (b + n) (memWord (copyMem a b n m) (a + n)) :=
  loop_succ n (fun i m => setWord m (b + i) (memWord m (a + i))) m

/-- The words after COPY, for every overlap of its operands (R117). -/
theorem memWord_copyMem (a b cnt : Nat) (m : Mem) (k : Nat) : memWord (copyMem a b cnt m) k =
    if b ≤ k ∧ k < b + cnt then memWord m (a + copySource a b (k - b)) else memWord m k := by
  induction cnt generalizing k with
  | zero => exact (if_neg (by omega)).symm
  | succ n ih =>
    have hread : memWord (copyMem a b n m) (a + n) = memWord m (a + copySource a b n) := by
      by_cases h : b ≤ a + n ∧ a < b
      · rw [ih, if_pos (by omega), copySource_of_overwritten h.1 h.2]
      · rw [ih, if_neg (by omega), copySource_of_untouched h]
    rw [copyMem_succ, memWord_setWord, hread, ih]
    by_cases hk : k = b + n
    · rw [if_pos hk, if_pos (by omega), hk, Nat.add_sub_cancel_left]
    · rw [if_neg hk]
      exact if_congr (by omega) rfl rfl

/-- Settles O11: the passes of the loop of COPY, and what they make of every word, as `memWord_copyMem` says. -/
theorem copyResult : Obligations.CopyResult := by
  unfold Obligations.CopyResult
  refine ⟨encodedAs_of_row rfl (by decide), fun s a b cnt => ?_⟩
  obtain ⟨hok, haddr⟩ := outcomes_of_not_usesN (i := .copy a b cnt) (s := s)
    (fit := s.fits a cnt ∧ s.fits b cnt) rfl rfl (by simp [extents])
  refine ⟨fun h => completesWith_of_check (hok h) rfl ⟨?_, fun i hi => ?_, ?_⟩, haddr⟩
  · exact passes_loop fun _ _ _ => writesOne_setWord _ _ _
  · have hword := memWord_copyMem a b cnt s.mem (b + i)
    rwa [if_pos ⟨by omega, by omega⟩, Nat.add_sub_cancel_left, copySource_eq hi] at hword
  · exact keepsOutside_extent (.copy a b cnt) s rfl

end Sys2Proof.Machine
end

/-! PROOF. What no command does (70_reset_and_hazards.md R135, R121): a byte outside the written extents is
never written, and a command that Check refuses writes none and leaves the rest of the command state. -/

section
namespace Sys2Proof.Machine

/-- The memory after a command: its effect's when Check passes, the same when it does not (R50, R121). -/
theorem mem_of_exec {i : Instr} {s t : State} (h : exec i s = .next t) :
    t.mem = (effectOf i s).mem ∨ t.mem = s.mem := by
  rcases exec_cases h with ⟨-, rfl⟩ | ⟨-, rfl⟩
  · exact .inl (retire_mem _)
  · exact .inr (by simp)

/-- A command changes no byte outside the extents it is listed to write, whether it completes or faults. -/
theorem keepsOutside_exec {i : Instr} {s t : State} (h : exec i s = .next t) :
    keepsOutside s.mem t.mem (inExtents (writtenExtents s.nPoints i)) := by
  rcases mem_of_exec h with hmem | hmem <;> rw [hmem]
  · exact (writesIn_effectOf i s).keepsOutside
  · exact fun _ _ => rfl

/-- Settles O44: the frame of the effect's word writes; a command that Check refuses is its fault entry alone. -/
theorem writesInsideExtents : Obligations.WritesInsideExtents := by
  unfold Obligations.WritesInsideExtents
  refine fun i s t h => ⟨fun x hx => keepsOutside_exec h x ?_, fun hcheck => ?_⟩
  · rintro ⟨e, he, hin⟩
    exact hx e he hin
  · obtain ⟨hok, -⟩ | ⟨-, rfl⟩ := exec_cases h
    · exact absurd hok hcheck
    · have hkeeps := keepsCommandState_faultEntry s (check i s) (encode i)
      exact ⟨by simp, hkeeps.p, hkeeps.cmdcnt, by simp, hkeeps.log2n, hkeeps.ratio, hkeeps.beta, hkeeps.mix,
        by simp⟩

end Sys2Proof.Machine
end
